-- ==== Sys2Proof/Word.lean ====
section
/-! DEFINITION. The widths of the machine's values (00_scope.md R6, R7; 10_state.md R20). -/

namespace Sys2Proof

/-- A working register, an I/O register or a byte of memory: 8 bits (R20, R60). -/
abbrev Byte := BitVec 8

/-- A program word, a register pair, a data address or a PC value: 16 bits (R21, R28, R60, R66). -/
abbrev Word := BitVec 16

/-- A working register's number, R0 to R31 (R20). -/
abbrev Reg := Fin 32

/-- An I/O address, 0 to 63 (R34). -/
abbrev IoAddr := BitVec 6

/-- A bit's number in a register or in SREG, 0 to 7 (R11, `b` and `s`). -/
abbrev BitNo := Fin 8

end Sys2Proof
end

