-- ==== Sys2Proof/Config.lean ====
section
/-! DEFINITION. What an implementation fixes: the profile and the parameters of 00_scope.md R6, the I/O
map of 10_state.md R35 and the vector list of 60_exceptions.md R351. A machine carries its `Config` in
its state; no step changes it. -/

namespace Sys2Proof

/-- The two device profiles the spec keeps apart (R2). -/
inductive Profile
  /-- The AT90S2313. -/
  | p2313
  /-- The ATmega32, known by its instruction list only. -/
  | pmega
deriving DecidableEq, Repr

/-- The I/O registers a source names (10_state.md R35), and SPH of PMEGA (R31). -/
inductive IoReg
  | sreg | spl | sph
  | gimsk | gifr | timsk | tifr | mcucr
  | tccr0 | tcnt0
  | tccr1a | tccr1b | tcnt1h | tcnt1l | ocr1ah | ocr1al | icr1h | icr1l
  | portB | ddrB | pinB
  | portD | ddrD | pinD
deriving DecidableEq, Repr

/-- The interrupt sources of the vector table (60_exceptions.md R351). -/
inductive Irq
  /-- External Interrupt Request 0. -/
  | int0
  /-- External Interrupt Request 1. -/
  | int1
  /-- Timer/Counter1 Capture Event. -/
  | icp1
  /-- Timer/Counter1 Compare Match. -/
  | oc1
  /-- Timer/Counter1 Overflow. -/
  | ovf1
  /-- Timer/Counter0 Overflow. -/
  | ovf0
  /-- UART, Rx Complete. -/
  | urxc
  /-- UART Data Register Empty. -/
  | udre
  /-- UART, Tx Complete. -/
  | utxc
  /-- Analog Comparator. -/
  | aci
deriving DecidableEq, Repr

/-- The implementation parameters (00_scope.md R6). -/
structure Config where
  /-- Which of the two profiles the device is; PMEGA has the instructions of 44_mega_extension.md. -/
  profile : Profile
  /-- `FLASH_WORDS`. -/
  flashWords : Nat
  /-- `PCW`, the width of the PC in bits; at most 16, since a return address is two bytes (entry 5). -/
  pcw : Nat
  /-- `SRAM_START`. -/
  sramStart : Word
  /-- `RAMEND`. -/
  ramend : Word
  /-- `SPW`, the width of the stack pointer in bits: 8 or 16. -/
  spw : Nat
  /-- `cfg.ioaddr` and the device set: which I/O register stands at which I/O address (10_state.md R35). -/
  ioMap : List (IoReg × IoAddr)
  /-- The interrupt source of vector 1, 2, ... in this order (60_exceptions.md R351). -/
  vectors : List Irq
  /-- `VECTOR_STRIDE`, program words a vector takes. -/
  vectorStride : Nat
  /-- `cfg.halt_pc`, a convention of a run and no property of the chip (70_reset_and_hazards.md R383). -/
  haltPc : Option Word
deriving DecidableEq, Repr

/-- `NVECTORS`, the reset vector included (R6). -/
def Config.nvectors (c : Config) : Nat := c.vectors.length + 1

/-- The AT90S2313's I/O map (10_state.md R35). -/
def Config.p2313IoMap : List (IoReg × IoAddr) :=
  [(.sreg, 0x3F), (.spl, 0x3D),
   (.gimsk, 0x3B), (.gifr, 0x3A), (.timsk, 0x39), (.tifr, 0x38), (.mcucr, 0x35),
   (.tccr0, 0x33), (.tcnt0, 0x32),
   (.tccr1a, 0x2F), (.tccr1b, 0x2E), (.tcnt1h, 0x2D), (.tcnt1l, 0x2C),
   (.ocr1ah, 0x2B), (.ocr1al, 0x2A), (.icr1h, 0x25), (.icr1l, 0x24),
   (.portB, 0x18), (.ddrB, 0x17), (.pinB, 0x16),
   (.portD, 0x12), (.ddrD, 0x11), (.pinD, 0x10)]

/-- Profile P2313: column P2313 of the table of R6. -/
def Config.p2313 : Config :=
  { profile := .p2313, flashWords := 1024, pcw := 10,
    sramStart := 0x60, ramend := 0xDF, spw := 8,
    ioMap := Config.p2313IoMap,
    vectors := [.int0, .int1, .icp1, .oc1, .ovf1, .ovf0, .urxc, .udre, .utxc, .aci],
    vectorStride := 1, haltPc := none }

/-- Profile PMEGA with the default value R6 offers for each open parameter; of the I/O map only the
registers R26 and R31 place, and no interrupt source, since no source describes one (entry 6). -/
def Config.pmega : Config :=
  { profile := .pmega, flashWords := 16384, pcw := 14,
    sramStart := 0x60, ramend := 0x085F, spw := 16,
    ioMap := [(.sreg, 0x3F), (.sph, 0x3E), (.spl, 0x3D)],
    vectors := [], vectorStride := 2, haltPc := none }

/-- What the rules ask of the parameters: a PC and a stack pointer that two bytes hold (R6, R33), an
SRAM above the I/O block that the stack pointer can address (R30), and no I/O address given to two
registers (R35). -/
def Config.wf (c : Config) : Bool :=
  decide (1 ≤ c.pcw ∧ c.pcw ≤ 16) && decide (c.flashWords ≤ 2 ^ c.pcw) &&
  decide (c.spw = 8 ∨ c.spw = 16) &&
  decide (0x60 ≤ c.sramStart.toNat ∧ c.sramStart.toNat ≤ c.ramend.toNat ∧ c.ramend.toNat < 2 ^ c.spw) &&
  decide (c.ioMap.Pairwise fun p q => p.1 ≠ q.1 ∧ p.2 ≠ q.2)

end Sys2Proof
end

