-- ==== Sys2Proof/Syntax.lean ====
section
/-! DEFINITION. The instructions: one constructor for each row of spec/opcode_table.json, in the table's
order (30_encoding.md R111). A row that is another spelling of a core instruction (R112) keeps its
constructor; the decoder never yields it (R113, entry 13). -/

namespace Sys2Proof

/-- An instruction with its operands. Registers are register numbers; `k` of the branches and of RJMP and
RCALL is the two's complement word offset as encoded; register classes are `Instr.wf`'s (10_state.md R23). -/
inductive Instr
  -- Data transfer (40_data_transfer.md)
  /-- `MOV Rd,Rr` (R130). -/
  | mov (rd rr : Reg)
  /-- `LDI Rd,K` (R131). -/
  | ldi (rd : Reg) (k : Byte)
  /-- `LD Rd,X` (R132). -/
  | ldX (rd : Reg)
  /-- `LD Rd,X+` (R133). -/
  | ldXInc (rd : Reg)
  /-- `LD Rd,-X` (R134). -/
  | ldXDec (rd : Reg)
  /-- `LD Rd,Y` (R135). -/
  | ldY (rd : Reg)
  /-- `LD Rd,Y+` (R136). -/
  | ldYInc (rd : Reg)
  /-- `LD Rd,-Y` (R137). -/
  | ldYDec (rd : Reg)
  /-- `LDD Rd,Y+q` (R138). -/
  | lddY (rd : Reg) (q : BitVec 6)
  /-- `LD Rd,Z` (R139). -/
  | ldZ (rd : Reg)
  /-- `LD Rd,Z+` (R140). -/
  | ldZInc (rd : Reg)
  /-- `LD Rd,-Z` (R141). -/
  | ldZDec (rd : Reg)
  /-- `LDD Rd,Z+q` (R142). -/
  | lddZ (rd : Reg) (q : BitVec 6)
  /-- `LDS Rd,k` (R143). -/
  | lds (rd : Reg) (k : Word)
  /-- `ST X,Rr` (R144). -/
  | stX (rr : Reg)
  /-- `ST X+,Rr` (R145). -/
  | stXInc (rr : Reg)
  /-- `ST -X,Rr` (R146). -/
  | stXDec (rr : Reg)
  /-- `ST Y,Rr` (R147). -/
  | stY (rr : Reg)
  /-- `ST Y+,Rr` (R148). -/
  | stYInc (rr : Reg)
  /-- `ST -Y,Rr` (R149). -/
  | stYDec (rr : Reg)
  /-- `STD Y+q,Rr` (R150). -/
  | stdY (q : BitVec 6) (rr : Reg)
  /-- `ST Z,Rr` (R151). -/
  | stZ (rr : Reg)
  /-- `ST Z+,Rr` (R152). -/
  | stZInc (rr : Reg)
  /-- `ST -Z,Rr` (R153). -/
  | stZDec (rr : Reg)
  /-- `STD Z+q,Rr` (R154). -/
  | stdZ (q : BitVec 6) (rr : Reg)
  /-- `STS k,Rr` (R155). -/
  | sts (k : Word) (rr : Reg)
  /-- `LPM` (R156). -/
  | lpm
  /-- `IN Rd,P` (R157). -/
  | inPort (rd : Reg) (a : IoAddr)
  /-- `OUT P,Rr` (R158). -/
  | outPort (a : IoAddr) (rr : Reg)
  /-- `PUSH Rr` (R159). -/
  | push (rr : Reg)
  /-- `POP Rd` (R161). -/
  | pop (rd : Reg)
  -- Bit and bit-test (41_bit_and_bit_test.md)
  /-- `SBI P,b` (R170). -/
  | sbi (a : BitVec 5) (b : BitNo)
  /-- `CBI P,b` (R171). -/
  | cbi (a : BitVec 5) (b : BitNo)
  /-- `SBR Rd,K` (R172). -/
  | sbr (rd : Reg) (k : Byte)
  /-- `CBR Rd,K` (R173). -/
  | cbr (rd : Reg) (k : Byte)
  /-- `LSL Rd` (R174). -/
  | lsl (rd : Reg)
  /-- `LSR Rd` (R175). -/
  | lsr (rd : Reg)
  /-- `ROL Rd` (R176). -/
  | rol (rd : Reg)
  /-- `ROR Rd` (R177). -/
  | ror (rd : Reg)
  /-- `ASR Rd` (R178). -/
  | asr (rd : Reg)
  /-- `SWAP Rd` (R179). -/
  | swap (rd : Reg)
  /-- `BSET s` (R180). -/
  | bset (s : BitNo)
  /-- `BCLR s` (R181). -/
  | bclr (s : BitNo)
  /-- `BST Rr,b` (R182). -/
  | bst (rr : Reg) (b : BitNo)
  /-- `BLD Rd,b` (R183). -/
  | bld (rd : Reg) (b : BitNo)
  /-- `SEC` (R184). -/
  | sec
  /-- `CLC` (R185). -/
  | clc
  /-- `SEN` (R186). -/
  | sen
  /-- `CLN` (R187). -/
  | cln
  /-- `SEZ` (R188). -/
  | sez
  /-- `CLZ` (R189). -/
  | clz
  /-- `SEI` (R190). -/
  | sei
  /-- `CLI` (R191). -/
  | cli
  /-- `SES` (R192). -/
  | ses
  /-- `CLS` (R193). -/
  | cls
  /-- `SEV` (R194). -/
  | sev
  /-- `CLV` (R195). -/
  | clv
  /-- `SET` (R196). -/
  | setT
  /-- `CLT` (R197). -/
  | clt
  /-- `SEH` (R198). -/
  | seh
  /-- `CLH` (R199). -/
  | clh
  /-- `NOP` (R200). -/
  | nop
  /-- `SLEEP` (R201). -/
  | sleep
  /-- `WDR` (R202). -/
  | wdr
  -- Arithmetic and logic (42_arithmetic_logic.md)
  /-- `ADD Rd,Rr` (R220). -/
  | add (rd rr : Reg)
  /-- `ADC Rd,Rr` (R221). -/
  | adc (rd rr : Reg)
  /-- `ADIW Rdl,K` (R222). -/
  | adiw (rd : Reg) (k : BitVec 6)
  /-- `SUB Rd,Rr` (R223). -/
  | sub (rd rr : Reg)
  /-- `SUBI Rd,K` (R224). -/
  | subi (rd : Reg) (k : Byte)
  /-- `SBC Rd,Rr` (R225). -/
  | sbc (rd rr : Reg)
  /-- `SBCI Rd,K` (R226). -/
  | sbci (rd : Reg) (k : Byte)
  /-- `SBIW Rdl,K` (R227). -/
  | sbiw (rd : Reg) (k : BitVec 6)
  /-- `AND Rd,Rr` (R228). -/
  | and (rd rr : Reg)
  /-- `ANDI Rd,K` (R229). -/
  | andi (rd : Reg) (k : Byte)
  /-- `OR Rd,Rr` (R230). -/
  | or (rd rr : Reg)
  /-- `ORI Rd,K` (R231). -/
  | ori (rd : Reg) (k : Byte)
  /-- `EOR Rd,Rr` (R232). -/
  | eor (rd rr : Reg)
  /-- `COM Rd` (R233). -/
  | com (rd : Reg)
  /-- `NEG Rd` (R234). -/
  | neg (rd : Reg)
  /-- `INC Rd` (R235). -/
  | inc (rd : Reg)
  /-- `DEC Rd` (R236). -/
  | dec (rd : Reg)
  /-- `TST Rd` (R237). -/
  | tst (rd : Reg)
  /-- `CLR Rd` (R238). -/
  | clr (rd : Reg)
  /-- `SER Rd` (R239). -/
  | ser (rd : Reg)
  -- Branch (43_branch.md)
  /-- `RJMP k` (R260). -/
  | rjmp (k : BitVec 12)
  /-- `IJMP` (R261). -/
  | ijmp
  /-- `RCALL k` (R262). -/
  | rcall (k : BitVec 12)
  /-- `ICALL` (R263). -/
  | icall
  /-- `RET` (R264). -/
  | ret
  /-- `RETI` (R265). -/
  | reti
  /-- `CPSE Rd,Rr` (R266). -/
  | cpse (rd rr : Reg)
  /-- `CP Rd,Rr` (R267). -/
  | cp (rd rr : Reg)
  /-- `CPC Rd,Rr` (R268). -/
  | cpc (rd rr : Reg)
  /-- `CPI Rd,K` (R269). -/
  | cpi (rd : Reg) (k : Byte)
  /-- `SBRC Rr,b` (R270). -/
  | sbrc (rr : Reg) (b : BitNo)
  /-- `SBRS Rr,b` (R271). -/
  | sbrs (rr : Reg) (b : BitNo)
  /-- `SBIC P,b` (R272). -/
  | sbic (a : BitVec 5) (b : BitNo)
  /-- `SBIS P,b` (R273). -/
  | sbis (a : BitVec 5) (b : BitNo)
  /-- `BRBS s,k` (R274). -/
  | brbs (s : BitNo) (k : BitVec 7)
  /-- `BRBC s,k` (R275). -/
  | brbc (s : BitNo) (k : BitVec 7)
  /-- `BREQ k` (R276). -/
  | breq (k : BitVec 7)
  /-- `BRNE k` (R277). -/
  | brne (k : BitVec 7)
  /-- `BRCS k` (R278). -/
  | brcs (k : BitVec 7)
  /-- `BRCC k` (R279). -/
  | brcc (k : BitVec 7)
  /-- `BRSH k` (R280). -/
  | brsh (k : BitVec 7)
  /-- `BRLO k` (R281). -/
  | brlo (k : BitVec 7)
  /-- `BRMI k` (R282). -/
  | brmi (k : BitVec 7)
  /-- `BRPL k` (R283). -/
  | brpl (k : BitVec 7)
  /-- `BRGE k` (R284). -/
  | brge (k : BitVec 7)
  /-- `BRLT k` (R285). -/
  | brlt (k : BitVec 7)
  /-- `BRHS k` (R286). -/
  | brhs (k : BitVec 7)
  /-- `BRHC k` (R287). -/
  | brhc (k : BitVec 7)
  /-- `BRTS k` (R288). -/
  | brts (k : BitVec 7)
  /-- `BRTC k` (R289). -/
  | brtc (k : BitVec 7)
  /-- `BRVS k` (R290). -/
  | brvs (k : BitVec 7)
  /-- `BRVC k` (R291). -/
  | brvc (k : BitVec 7)
  /-- `BRIE k` (R292). -/
  | brie (k : BitVec 7)
  /-- `BRID k` (R293). -/
  | brid (k : BitVec 7)
  -- PMEGA only (44_mega_extension.md)
  /-- `MOVW Rd,Rr` (R310). -/
  | movw (rd rr : Reg)
  /-- `LPM Rd,Z` (R311). -/
  | lpmZ (rd : Reg)
  /-- `LPM Rd,Z+` (R312). -/
  | lpmZInc (rd : Reg)
  /-- `SPM` (R314). -/
  | spm
  /-- `BREAK` (R315). -/
  | brk
  /-- `MUL Rd,Rr` (R316). -/
  | mul (rd rr : Reg)
  /-- `MULS Rd,Rr` (R317). -/
  | muls (rd rr : Reg)
  /-- `MULSU Rd,Rr` (R318). -/
  | mulsu (rd rr : Reg)
  /-- `FMUL Rd,Rr` (R319). -/
  | fmul (rd rr : Reg)
  /-- `FMULS Rd,Rr` (R320). -/
  | fmuls (rd rr : Reg)
  /-- `FMULSU Rd,Rr` (R321). -/
  | fmulsu (rd rr : Reg)
  /-- `JMP k` (R322). -/
  | jmp (k : BitVec 22)
  /-- `CALL k` (R323). -/
  | call (k : BitVec 22)
deriving DecidableEq, Repr

end Sys2Proof
end

