-- ==== Sys2Proof/WellFormed.lean ====
section
/-! DEFINITION. Which terms of `Instr` an instruction word can hold: the register classes of 10_state.md
R23, the profile each instruction belongs to (00_scope.md R3) and its length (30_encoding.md R91). -/

namespace Sys2Proof

/-- R16 to R31, the registers a 4-bit field names (R23, R94). -/
def Reg.upper (r : Reg) : Bool := decide (16 ≤ r.val)

/-- R24, R26, R28, R30, the low registers of the word pairs (R23, R99). -/
def Reg.wordPair (r : Reg) : Bool := decide (24 ≤ r.val ∧ r.val % 2 = 0)

/-- R0, R2, ..., R30, the operands of MOVW (R23, R107). -/
def Reg.even (r : Reg) : Bool := decide (r.val % 2 = 0)

/-- R16 to R23, the operands of MULSU, FMUL, FMULS, FMULSU (R23, R107). -/
def Reg.lowUpper (r : Reg) : Bool := decide (16 ≤ r.val ∧ r.val < 24)

/-- The operands lie in the instruction's register classes (R23). Every other operand's range is its type's. -/
def Instr.wf : Instr → Bool
  | .ldi rd _ | .sbr rd _ | .cbr rd _ | .subi rd _ | .sbci rd _ | .andi rd _ | .ori rd _ | .cpi rd _
  | .ser rd => rd.upper
  | .adiw rd _ | .sbiw rd _ => rd.wordPair
  | .movw rd rr => rd.even && rr.even
  | .muls rd rr => rd.upper && rr.upper
  | .mulsu rd rr | .fmul rd rr | .fmuls rd rr | .fmulsu rd rr => rd.lowUpper && rr.lowUpper
  | .mov _ _ | .ldX _ | .ldXInc _ | .ldXDec _ | .ldY _ | .ldYInc _ | .ldYDec _ | .lddY _ _ | .ldZ _
  | .ldZInc _ | .ldZDec _ | .lddZ _ _ | .lds _ _ | .stX _ | .stXInc _ | .stXDec _ | .stY _ | .stYInc _
  | .stYDec _ | .stdY _ _ | .stZ _ | .stZInc _ | .stZDec _ | .stdZ _ _ | .sts _ _ | .lpm | .inPort _ _
  | .outPort _ _ | .push _ | .pop _ | .sbi _ _ | .cbi _ _ | .lsl _ | .lsr _ | .rol _ | .ror _ | .asr _
  | .swap _ | .bset _ | .bclr _ | .bst _ _ | .bld _ _ | .sec | .clc | .sen | .cln | .sez | .clz | .sei
  | .cli | .ses | .cls | .sev | .clv | .setT | .clt | .seh | .clh | .nop | .sleep | .wdr | .add _ _
  | .adc _ _ | .sub _ _ | .sbc _ _ | .and _ _ | .or _ _ | .eor _ _ | .com _ | .neg _ | .inc _ | .dec _
  | .tst _ | .clr _ | .rjmp _ | .ijmp | .rcall _ | .icall | .ret | .reti | .cpse _ _ | .cp _ _
  | .cpc _ _ | .sbrc _ _ | .sbrs _ _ | .sbic _ _ | .sbis _ _ | .brbs _ _ | .brbc _ _ | .breq _ | .brne _
  | .brcs _ | .brcc _ | .brsh _ | .brlo _ | .brmi _ | .brpl _ | .brge _ | .brlt _ | .brhs _ | .brhc _
  | .brts _ | .brtc _ | .brvs _ | .brvc _ | .brie _ | .brid _ | .lpmZ _ | .lpmZInc _ | .spm | .brk
  | .mul _ _ | .jmp _ | .call _ => true

/-- The instruction exists on PMEGA only (R3). -/
def Instr.megaOnly : Instr → Bool
  | .movw _ _ | .lpmZ _ | .lpmZInc _ | .spm | .brk | .mul _ _ | .muls _ _ | .mulsu _ _ | .fmul _ _
  | .fmuls _ _ | .fmulsu _ _ | .jmp _ | .call _ => true
  | .mov _ _ | .ldi _ _ | .ldX _ | .ldXInc _ | .ldXDec _ | .ldY _ | .ldYInc _ | .ldYDec _ | .lddY _ _
  | .ldZ _ | .ldZInc _ | .ldZDec _ | .lddZ _ _ | .lds _ _ | .stX _ | .stXInc _ | .stXDec _ | .stY _
  | .stYInc _ | .stYDec _ | .stdY _ _ | .stZ _ | .stZInc _ | .stZDec _ | .stdZ _ _ | .sts _ _ | .lpm
  | .inPort _ _ | .outPort _ _ | .push _ | .pop _ | .sbi _ _ | .cbi _ _ | .sbr _ _ | .cbr _ _ | .lsl _
  | .lsr _ | .rol _ | .ror _ | .asr _ | .swap _ | .bset _ | .bclr _ | .bst _ _ | .bld _ _ | .sec | .clc
  | .sen | .cln | .sez | .clz | .sei | .cli | .ses | .cls | .sev | .clv | .setT | .clt | .seh | .clh
  | .nop | .sleep | .wdr | .add _ _ | .adc _ _ | .adiw _ _ | .sub _ _ | .subi _ _ | .sbc _ _ | .sbci _ _
  | .sbiw _ _ | .and _ _ | .andi _ _ | .or _ _ | .ori _ _ | .eor _ _ | .com _ | .neg _ | .inc _ | .dec _
  | .tst _ | .clr _ | .ser _ | .rjmp _ | .ijmp | .rcall _ | .icall | .ret | .reti | .cpse _ _ | .cp _ _
  | .cpc _ _ | .cpi _ _ | .sbrc _ _ | .sbrs _ _ | .sbic _ _ | .sbis _ _ | .brbs _ _ | .brbc _ _
  | .breq _ | .brne _ | .brcs _ | .brcc _ | .brsh _ | .brlo _ | .brmi _ | .brpl _ | .brge _ | .brlt _
  | .brhs _ | .brhc _ | .brts _ | .brtc _ | .brvs _ | .brvc _ | .brie _ | .brid _ => false

/-- The instruction exists on the profile (R3). -/
def Instr.onProfile (p : Profile) (i : Instr) : Bool := p == .pmega || !i.megaOnly

/-- `L`, the instruction's length in program words (R9, R91). -/
def Instr.words : Instr → Nat
  | .lds _ _ | .sts _ _ | .jmp _ | .call _ => 2
  | .mov _ _ | .ldi _ _ | .ldX _ | .ldXInc _ | .ldXDec _ | .ldY _ | .ldYInc _ | .ldYDec _ | .lddY _ _
  | .ldZ _ | .ldZInc _ | .ldZDec _ | .lddZ _ _ | .stX _ | .stXInc _ | .stXDec _ | .stY _ | .stYInc _
  | .stYDec _ | .stdY _ _ | .stZ _ | .stZInc _ | .stZDec _ | .stdZ _ _ | .lpm | .inPort _ _
  | .outPort _ _ | .push _ | .pop _ | .sbi _ _ | .cbi _ _ | .sbr _ _ | .cbr _ _ | .lsl _ | .lsr _
  | .rol _ | .ror _ | .asr _ | .swap _ | .bset _ | .bclr _ | .bst _ _ | .bld _ _ | .sec | .clc | .sen
  | .cln | .sez | .clz | .sei | .cli | .ses | .cls | .sev | .clv | .setT | .clt | .seh | .clh | .nop
  | .sleep | .wdr | .add _ _ | .adc _ _ | .adiw _ _ | .sub _ _ | .subi _ _ | .sbc _ _ | .sbci _ _
  | .sbiw _ _ | .and _ _ | .andi _ _ | .or _ _ | .ori _ _ | .eor _ _ | .com _ | .neg _ | .inc _ | .dec _
  | .tst _ | .clr _ | .ser _ | .rjmp _ | .ijmp | .rcall _ | .icall | .ret | .reti | .cpse _ _ | .cp _ _
  | .cpc _ _ | .cpi _ _ | .sbrc _ _ | .sbrs _ _ | .sbic _ _ | .sbis _ _ | .brbs _ _ | .brbc _ _
  | .breq _ | .brne _ | .brcs _ | .brcc _ | .brsh _ | .brlo _ | .brmi _ | .brpl _ | .brge _ | .brlt _
  | .brhs _ | .brhc _ | .brts _ | .brtc _ | .brvs _ | .brvc _ | .brie _ | .brid _ | .movw _ _ | .lpmZ _
  | .lpmZInc _ | .spm | .brk | .mul _ _ | .muls _ _ | .mulsu _ _ | .fmul _ _ | .fmuls _ _ | .fmulsu _ _ => 1

end Sys2Proof
end

