-- ==== Sys2Proof/Decode.lean ====
section
/-! DEFINITION. The decoder, by the opcode map of 30_encoding.md R109 and R110, and after it the encoder,
by the formats of R93 to R107. Every bit pattern is the spec's general-knowledge passage G1 (entry 3). -/

namespace Sys2Proof

/-! ## Fields of a word (R92, R108) -/

/-- The `n` bits of the word that begin at bit `lo`. -/
def field (w : Word) (lo n : Nat) : Nat := w.toNat / 2 ^ lo % 2 ^ n

/-- The 5-bit register field in bits 8 to 4 (R93). -/
def fieldD (w : Word) : Reg := Fin.ofNat 32 (field w 4 5)

/-- The 5-bit register field in bits 9 and 3 to 0 (R93). -/
def fieldR (w : Word) : Reg := Fin.ofNat 32 (field w 9 1 * 16 + field w 0 4)

/-- `16 + dddd`, bits 7 to 4 (R94). -/
def fieldDUpper (w : Word) : Reg := Fin.ofNat 32 (16 + field w 4 4)

/-- `K` of format RI, bits 11 to 8 and 3 to 0 (R94). -/
def fieldK8 (w : Word) : Byte := BitVec.ofNat 8 (field w 8 4 * 16 + field w 0 4)

/-- `Rdl = 24 + 2*dd`, bits 5 and 4 (R99). -/
def fieldPair (w : Word) : Reg := Fin.ofNat 32 (24 + 2 * field w 4 2)

/-- `K` of format IW, bits 7, 6 and 3 to 0 (R99). -/
def fieldK6 (w : Word) : BitVec 6 := BitVec.ofNat 6 (field w 6 2 * 16 + field w 0 4)

/-- `q`, bits 13, 11, 10 and 2 to 0 (R97). -/
def fieldQ (w : Word) : BitVec 6 := BitVec.ofNat 6 (field w 13 1 * 32 + field w 10 2 * 8 + field w 0 3)

/-- `A` of format IO, bits 10, 9 and 3 to 0 (R100). -/
def fieldA6 (w : Word) : IoAddr := BitVec.ofNat 6 (field w 9 2 * 16 + field w 0 4)

/-- `A` of format IOB, bits 7 to 3 (R101). -/
def fieldA5 (w : Word) : BitVec 5 := BitVec.ofNat 5 (field w 3 5)

/-- `b`, or `s` of format BR, bits 2 to 0 (R101, R102, R103). -/
def fieldB (w : Word) : BitNo := Fin.ofNat 8 (field w 0 3)

/-- `s` of format SREG, bits 6 to 4 (R105). -/
def fieldS (w : Word) : BitNo := Fin.ofNat 8 (field w 4 3)

/-- `k` of format BR, bits 9 to 3 (R103). -/
def fieldK7 (w : Word) : BitVec 7 := BitVec.ofNat 7 (field w 3 7)

/-- `k` of format REL, bits 11 to 0 (R104). -/
def fieldK12 (w : Word) : BitVec 12 := BitVec.ofNat 12 (field w 0 12)

/-- `k` of JMP and CALL: first-word bits 8 to 4, first-word bit 0, second word (R107). -/
def fieldK22 (w0 w1 : Word) : BitVec 22 :=
  BitVec.ofNat 22 (field w0 4 5 * 2 ^ 17 + field w0 0 1 * 2 ^ 16 + w1.toNat)

/-! ## The decoder -/

/-- Why bytes are no instruction. -/
inductive DecodeReject
  /-- The first word encodes no instruction of the profile (R114). -/
  | reserved (w : Word)
  /-- The bytes end before the instruction does. -/
  | truncated
deriving DecidableEq, Repr

/-- The instruction, on PMEGA only (R107, R114). -/
def onMega (p : Profile) (i : Instr) : Option Instr := if p = .pmega then some i else none

/-- R91: the length in words, by the first word alone. -/
def wordLength (p : Profile) (w : Word) : Nat :=
  if (field w 9 7 = 0b1001000 ∨ field w 9 7 = 0b1001001) ∧ field w 0 4 = 0 then 2
  else if p = .pmega ∧ field w 9 7 = 0b1001010 ∧ field w 2 2 = 0b11 then 2
  else 1

/-- Words `0000 ...` (R109). -/
def decodeNibble0 (p : Profile) (w : Word) : Option Instr :=
  if field w 10 2 = 0b01 then some (.cpc (fieldD w) (fieldR w))
  else if field w 10 2 = 0b10 then some (.sbc (fieldD w) (fieldR w))
  else if field w 10 2 = 0b11 then some (.add (fieldD w) (fieldR w))
  else if field w 8 2 = 0b00 then if field w 0 8 = 0 then some .nop else none
  else if field w 8 2 = 0b01 then
    onMega p (.movw (Fin.ofNat 32 (2 * field w 4 4)) (Fin.ofNat 32 (2 * field w 0 4)))
  else if field w 8 2 = 0b10 then
    onMega p (.muls (Fin.ofNat 32 (16 + field w 4 4)) (Fin.ofNat 32 (16 + field w 0 4)))
  else
    let d : Reg := Fin.ofNat 32 (16 + field w 4 3)
    let r : Reg := Fin.ofNat 32 (16 + field w 0 3)
    if field w 7 1 = 0 then
      if field w 3 1 = 0 then onMega p (.mulsu d r) else onMega p (.fmul d r)
    else if field w 3 1 = 0 then onMega p (.fmuls d r) else onMega p (.fmulsu d r)

/-- Words `0001 ...` (R109). -/
def decodeNibble1 (w : Word) : Instr :=
  if field w 10 2 = 0b00 then .cpse (fieldD w) (fieldR w)
  else if field w 10 2 = 0b01 then .cp (fieldD w) (fieldR w)
  else if field w 10 2 = 0b10 then .sub (fieldD w) (fieldR w)
  else .adc (fieldD w) (fieldR w)

/-- Words `0010 ...` (R109). -/
def decodeNibble2 (w : Word) : Instr :=
  if field w 10 2 = 0b00 then .and (fieldD w) (fieldR w)
  else if field w 10 2 = 0b01 then .eor (fieldD w) (fieldR w)
  else if field w 10 2 = 0b10 then .or (fieldD w) (fieldR w)
  else .mov (fieldD w) (fieldR w)

/-- Words `10q0 ...`, format LDD (R97). -/
def decodeDisp (w : Word) : Instr :=
  if field w 9 1 = 0 then
    if field w 3 1 = 0 then .lddZ (fieldD w) (fieldQ w) else .lddY (fieldD w) (fieldQ w)
  else if field w 3 1 = 0 then .stdZ (fieldQ w) (fieldD w) else .stdY (fieldQ w) (fieldD w)

/-- Words `1001 000d dddd mmmm`, the loads of format LS (R96). -/
def decodeLoad (p : Profile) (w w1 : Word) : Option Instr :=
  if field w 0 4 = 0b0000 then some (.lds (fieldD w) w1)
  else if field w 0 4 = 0b0001 then some (.ldZInc (fieldD w))
  else if field w 0 4 = 0b0010 then some (.ldZDec (fieldD w))
  else if field w 0 4 = 0b0100 then onMega p (.lpmZ (fieldD w))
  else if field w 0 4 = 0b0101 then onMega p (.lpmZInc (fieldD w))
  else if field w 0 4 = 0b1001 then some (.ldYInc (fieldD w))
  else if field w 0 4 = 0b1010 then some (.ldYDec (fieldD w))
  else if field w 0 4 = 0b1100 then some (.ldX (fieldD w))
  else if field w 0 4 = 0b1101 then some (.ldXInc (fieldD w))
  else if field w 0 4 = 0b1110 then some (.ldXDec (fieldD w))
  else if field w 0 4 = 0b1111 then some (.pop (fieldD w))
  else none

/-- Words `1001 001r rrrr mmmm`, the stores of format LS (R96). -/
def decodeStore (w w1 : Word) : Option Instr :=
  if field w 0 4 = 0b0000 then some (.sts w1 (fieldD w))
  else if field w 0 4 = 0b0001 then some (.stZInc (fieldD w))
  else if field w 0 4 = 0b0010 then some (.stZDec (fieldD w))
  else if field w 0 4 = 0b1001 then some (.stYInc (fieldD w))
  else if field w 0 4 = 0b1010 then some (.stYDec (fieldD w))
  else if field w 0 4 = 0b1100 then some (.stX (fieldD w))
  else if field w 0 4 = 0b1101 then some (.stXInc (fieldD w))
  else if field w 0 4 = 0b1110 then some (.stXDec (fieldD w))
  else if field w 0 4 = 0b1111 then some (.push (fieldD w))
  else none

/-- Words `1001 010x xxxx 1000` (R110). -/
def decodeSystem (p : Profile) (w : Word) : Option Instr :=
  if field w 8 1 = 0 then
    if field w 7 1 = 0 then some (.bset (fieldS w)) else some (.bclr (fieldS w))
  else if field w 4 4 = 0b0000 then some .ret
  else if field w 4 4 = 0b0001 then some .reti
  else if field w 4 4 = 0b1000 then some .sleep
  else if field w 4 4 = 0b1001 then onMega p .brk
  else if field w 4 4 = 0b1010 then some .wdr
  else if field w 4 4 = 0b1100 then some .lpm
  else if field w 4 4 = 0b1110 then onMega p .spm
  else none

/-- Words `1001 010x xxxx yyyy` (R110). -/
def decodeMisc (p : Profile) (w w1 : Word) : Option Instr :=
  if field w 0 4 = 0b0000 then some (.com (fieldD w))
  else if field w 0 4 = 0b0001 then some (.neg (fieldD w))
  else if field w 0 4 = 0b0010 then some (.swap (fieldD w))
  else if field w 0 4 = 0b0011 then some (.inc (fieldD w))
  else if field w 0 4 = 0b0101 then some (.asr (fieldD w))
  else if field w 0 4 = 0b0110 then some (.lsr (fieldD w))
  else if field w 0 4 = 0b0111 then some (.ror (fieldD w))
  else if field w 0 4 = 0b1000 then decodeSystem p w
  else if field w 0 4 = 0b1001 then
    if field w 4 5 = 0b00000 then some .ijmp
    else if field w 4 5 = 0b10000 then some .icall
    else none
  else if field w 0 4 = 0b1010 then some (.dec (fieldD w))
  else if field w 1 3 = 0b110 then onMega p (.jmp (fieldK22 w w1))
  else if field w 1 3 = 0b111 then onMega p (.call (fieldK22 w w1))
  else none

/-- Words `1001 ...` (R109). -/
def decodeNibble9 (p : Profile) (w w1 : Word) : Option Instr :=
  if field w 9 3 = 0b000 then decodeLoad p w w1
  else if field w 9 3 = 0b001 then decodeStore w w1
  else if field w 9 3 = 0b010 then decodeMisc p w w1
  else if field w 9 3 = 0b011 then
    if field w 8 1 = 0 then some (.adiw (fieldPair w) (fieldK6 w))
    else some (.sbiw (fieldPair w) (fieldK6 w))
  else if field w 9 3 = 0b100 then
    if field w 8 1 = 0 then some (.cbi (fieldA5 w) (fieldB w)) else some (.sbic (fieldA5 w) (fieldB w))
  else if field w 9 3 = 0b101 then
    if field w 8 1 = 0 then some (.sbi (fieldA5 w) (fieldB w)) else some (.sbis (fieldA5 w) (fieldB w))
  else onMega p (.mul (fieldD w) (fieldR w))

/-- Words `1111 ...` (R102, R103, R109). -/
def decodeNibbleF (w : Word) : Option Instr :=
  if field w 11 1 = 0 then
    if field w 10 1 = 0 then some (.brbs (fieldB w) (fieldK7 w)) else some (.brbc (fieldB w) (fieldK7 w))
  else if field w 3 1 = 0 then
    if field w 9 2 = 0b00 then some (.bld (fieldD w) (fieldB w))
    else if field w 9 2 = 0b01 then some (.bst (fieldD w) (fieldB w))
    else if field w 9 2 = 0b10 then some (.sbrc (fieldD w) (fieldB w))
    else some (.sbrs (fieldD w) (fieldB w))
  else none

/-- The first-level map of R109; none for a reserved word (R114). `w1` is the word after `w`, read by
the two-word instructions only. -/
def decode? (p : Profile) (w w1 : Word) : Option Instr :=
  if field w 12 4 = 0x0 then decodeNibble0 p w
  else if field w 12 4 = 0x1 then some (decodeNibble1 w)
  else if field w 12 4 = 0x2 then some (decodeNibble2 w)
  else if field w 12 4 = 0x3 then some (.cpi (fieldDUpper w) (fieldK8 w))
  else if field w 12 4 = 0x4 then some (.sbci (fieldDUpper w) (fieldK8 w))
  else if field w 12 4 = 0x5 then some (.subi (fieldDUpper w) (fieldK8 w))
  else if field w 12 4 = 0x6 then some (.ori (fieldDUpper w) (fieldK8 w))
  else if field w 12 4 = 0x7 then some (.andi (fieldDUpper w) (fieldK8 w))
  else if field w 12 4 = 0x9 then decodeNibble9 p w w1
  else if field w 12 4 = 0xB then
    if field w 11 1 = 0 then some (.inPort (fieldD w) (fieldA6 w)) else some (.outPort (fieldA6 w) (fieldD w))
  else if field w 12 4 = 0xC then some (.rjmp (fieldK12 w))
  else if field w 12 4 = 0xD then some (.rcall (fieldK12 w))
  else if field w 12 4 = 0xE then some (.ldi (fieldDUpper w) (fieldK8 w))
  else if field w 12 4 = 0xF then decodeNibbleF w
  else some (decodeDisp w)

/-- The instruction the words stand for on the profile, or the rejection by name. -/
def decode (p : Profile) (w w1 : Word) : Except DecodeReject Instr :=
  match decode? p w w1 with
  | some i => .ok i
  | none => .error (.reserved w)

/-- A program word from its bytes, the low byte at the even address (20_memory.md R66, R68). -/
def wordOfBytes (lo hi : Byte) : Word := BitVec.ofNat 16 (hi.toNat * 256 + lo.toNat)

/-- The instruction at the head of a byte sequence of program memory, and the bytes after it. -/
def decodeBytes (p : Profile) : List Byte → Except DecodeReject (Instr × List Byte)
  | lo :: hi :: rest =>
    let w := wordOfBytes lo hi
    if wordLength p w = 2 then
      match rest with
      | lo1 :: hi1 :: rest1 => (decode p w (wordOfBytes lo1 hi1)).map (·, rest1)
      | _ => .error .truncated
    else (decode p w 0).map (·, rest)
  | _ => .error .truncated

/-- The instruction the decoder reads from the bits of `w`, numbered as spec/opcode_table.json numbers
them; every bit above `nbits` is 0. PMEGA has every row of the table (R3). -/
def decodeTableWord (nbits w : Nat) : Option Instr :=
  let v := w % 2 ^ nbits
  let byte (n : Nat) : Byte := BitVec.ofNat 8 (v / 2 ^ (8 * n) % 256)
  match decodeBytes .pmega [byte 0, byte 1, byte 2, byte 3] with
  | .ok (i, _) => some i
  | .error _ => none

/-! ## The encoder -/

/-- Format RR, `oooo oord dddd rrrr` (R93). -/
def encRR (op : Nat) (d r : Reg) : List Word :=
  [BitVec.ofNat 16 (op * 1024 + r.val / 16 * 512 + d.val * 16 + r.val % 16)]

/-- Format RI, `oooo KKKK dddd KKKK` (R94). -/
def encRI (op : Nat) (d : Reg) (k : Byte) : List Word :=
  [BitVec.ofNat 16 (op * 4096 + k.toNat / 16 * 256 + d.val % 16 * 16 + k.toNat % 16)]

/-- Format R1, `1001 010d dddd oooo` (R95). -/
def encR1 (d : Reg) (op : Nat) : List Word := [BitVec.ofNat 16 (0x9400 + d.val * 16 + op)]

/-- Format LS, `1001 00sd dddd mmmm` (R96). -/
def encLS (st : Nat) (d : Reg) (m : Nat) : Word := BitVec.ofNat 16 (0x9000 + st * 512 + d.val * 16 + m)

/-- Format LDD, `10q0 qqsd dddd yqqq` (R97). -/
def encLDD (st : Nat) (q : BitVec 6) (d : Reg) (y : Nat) : List Word :=
  [BitVec.ofNat 16 (0x8000 + q.toNat / 32 * 8192 + q.toNat / 8 % 4 * 1024 + st * 512 + d.val * 16 + y * 8
    + q.toNat % 8)]

/-- Format IW, `1001 011o KKdd KKKK` (R99). -/
def encIW (o : Nat) (d : Reg) (k : BitVec 6) : List Word :=
  [BitVec.ofNat 16 (0x9600 + o * 256 + k.toNat / 16 * 64 + d.val / 2 % 4 * 16 + k.toNat % 16)]

/-- Format IO, `1011 sAAd dddd AAAA` (R100). -/
def encIO (st : Nat) (a : IoAddr) (d : Reg) : List Word :=
  [BitVec.ofNat 16 (0xB000 + st * 2048 + a.toNat / 16 * 512 + d.val * 16 + a.toNat % 16)]

/-- Format IOB, `1001 10oo AAAA Abbb` (R101). -/
def encIOB (o : Nat) (a : BitVec 5) (b : BitNo) : List Word :=
  [BitVec.ofNat 16 (0x9800 + o * 256 + a.toNat * 8 + b.val)]

/-- Format RB, `1111 1ood dddd 0bbb` (R102). -/
def encRB (o : Nat) (d : Reg) (b : BitNo) : List Word :=
  [BitVec.ofNat 16 (0xF800 + o * 512 + d.val * 16 + b.val)]

/-- Format BR, `1111 0okk kkkk ksss` (R103). -/
def encBR (o : Nat) (s : BitNo) (k : BitVec 7) : List Word :=
  [BitVec.ofNat 16 (0xF000 + o * 1024 + k.toNat * 8 + s.val)]

/-- Format REL, `110o kkkk kkkk kkkk` (R104). -/
def encREL (o : Nat) (k : BitVec 12) : List Word := [BitVec.ofNat 16 (0xC000 + o * 4096 + k.toNat)]

/-- Format SREG, `1001 0100 osss 1000` (R105). -/
def encSREG (o : Nat) (s : BitNo) : List Word := [BitVec.ofNat 16 (0x9408 + o * 128 + s.val * 16)]

/-- MULSU, FMUL, FMULS, FMULSU, `0000 0011 oddd orrr` (R107). -/
def encMUL3 (o7 o3 : Nat) (d r : Reg) : List Word :=
  [BitVec.ofNat 16 (0x0300 + o7 * 128 + d.val % 8 * 16 + o3 * 8 + r.val % 8)]

/-- JMP and CALL, `1001 010k kkkk 11ok` and the second word (R107). -/
def encABS22 (o : Nat) (k : BitVec 22) : List Word :=
  [BitVec.ofNat 16 (0x940C + k.toNat / 2 ^ 17 * 16 + o * 2 + k.toNat / 2 ^ 16 % 2),
   BitVec.ofNat 16 (k.toNat % 2 ^ 16)]

/-- The words of a well-formed instruction, first word first (R93 to R107; the other spellings by R112). -/
def encode : Instr → List Word
  | .mov rd rr => encRR 0b001011 rd rr
  | .ldi rd k => encRI 0b1110 rd k
  | .ldX rd => [encLS 0 rd 0b1100]
  | .ldXInc rd => [encLS 0 rd 0b1101]
  | .ldXDec rd => [encLS 0 rd 0b1110]
  | .ldY rd => encLDD 0 0 rd 1
  | .ldYInc rd => [encLS 0 rd 0b1001]
  | .ldYDec rd => [encLS 0 rd 0b1010]
  | .lddY rd q => encLDD 0 q rd 1
  | .ldZ rd => encLDD 0 0 rd 0
  | .ldZInc rd => [encLS 0 rd 0b0001]
  | .ldZDec rd => [encLS 0 rd 0b0010]
  | .lddZ rd q => encLDD 0 q rd 0
  | .lds rd k => [encLS 0 rd 0b0000, k]
  | .stX rr => [encLS 1 rr 0b1100]
  | .stXInc rr => [encLS 1 rr 0b1101]
  | .stXDec rr => [encLS 1 rr 0b1110]
  | .stY rr => encLDD 1 0 rr 1
  | .stYInc rr => [encLS 1 rr 0b1001]
  | .stYDec rr => [encLS 1 rr 0b1010]
  | .stdY q rr => encLDD 1 q rr 1
  | .stZ rr => encLDD 1 0 rr 0
  | .stZInc rr => [encLS 1 rr 0b0001]
  | .stZDec rr => [encLS 1 rr 0b0010]
  | .stdZ q rr => encLDD 1 q rr 0
  | .sts k rr => [encLS 1 rr 0b0000, k]
  | .lpm => [0x95C8]
  | .inPort rd a => encIO 0 a rd
  | .outPort a rr => encIO 1 a rr
  | .push rr => [encLS 1 rr 0b1111]
  | .pop rd => [encLS 0 rd 0b1111]
  | .sbi a b => encIOB 0b10 a b
  | .cbi a b => encIOB 0b00 a b
  | .sbr rd k => encRI 0b0110 rd k
  | .cbr rd k => encRI 0b0111 rd (0xFF - k)
  | .lsl rd => encRR 0b000011 rd rd
  | .lsr rd => encR1 rd 0b0110
  | .rol rd => encRR 0b000111 rd rd
  | .ror rd => encR1 rd 0b0111
  | .asr rd => encR1 rd 0b0101
  | .swap rd => encR1 rd 0b0010
  | .bset s => encSREG 0 s
  | .bclr s => encSREG 1 s
  | .bst rr b => encRB 0b01 rr b
  | .bld rd b => encRB 0b00 rd b
  | .sec => [0x9408]
  | .clc => [0x9488]
  | .sen => [0x9428]
  | .cln => [0x94A8]
  | .sez => [0x9418]
  | .clz => [0x9498]
  | .sei => [0x9478]
  | .cli => [0x94F8]
  | .ses => [0x9448]
  | .cls => [0x94C8]
  | .sev => [0x9438]
  | .clv => [0x94B8]
  | .setT => [0x9468]
  | .clt => [0x94E8]
  | .seh => [0x9458]
  | .clh => [0x94D8]
  | .nop => [0x0000]
  | .sleep => [0x9588]
  | .wdr => [0x95A8]
  | .add rd rr => encRR 0b000011 rd rr
  | .adc rd rr => encRR 0b000111 rd rr
  | .adiw rd k => encIW 0 rd k
  | .sub rd rr => encRR 0b000110 rd rr
  | .subi rd k => encRI 0b0101 rd k
  | .sbc rd rr => encRR 0b000010 rd rr
  | .sbci rd k => encRI 0b0100 rd k
  | .sbiw rd k => encIW 1 rd k
  | .and rd rr => encRR 0b001000 rd rr
  | .andi rd k => encRI 0b0111 rd k
  | .or rd rr => encRR 0b001010 rd rr
  | .ori rd k => encRI 0b0110 rd k
  | .eor rd rr => encRR 0b001001 rd rr
  | .com rd => encR1 rd 0b0000
  | .neg rd => encR1 rd 0b0001
  | .inc rd => encR1 rd 0b0011
  | .dec rd => encR1 rd 0b1010
  | .tst rd => encRR 0b001000 rd rd
  | .clr rd => encRR 0b001001 rd rd
  | .ser rd => encRI 0b1110 rd 0xFF
  | .rjmp k => encREL 0 k
  | .ijmp => [0x9409]
  | .rcall k => encREL 1 k
  | .icall => [0x9509]
  | .ret => [0x9508]
  | .reti => [0x9518]
  | .cpse rd rr => encRR 0b000100 rd rr
  | .cp rd rr => encRR 0b000101 rd rr
  | .cpc rd rr => encRR 0b000001 rd rr
  | .cpi rd k => encRI 0b0011 rd k
  | .sbrc rr b => encRB 0b10 rr b
  | .sbrs rr b => encRB 0b11 rr b
  | .sbic a b => encIOB 0b01 a b
  | .sbis a b => encIOB 0b11 a b
  | .brbs s k => encBR 0 s k
  | .brbc s k => encBR 1 s k
  | .breq k => encBR 0 1 k
  | .brne k => encBR 1 1 k
  | .brcs k => encBR 0 0 k
  | .brcc k => encBR 1 0 k
  | .brsh k => encBR 1 0 k
  | .brlo k => encBR 0 0 k
  | .brmi k => encBR 0 2 k
  | .brpl k => encBR 1 2 k
  | .brge k => encBR 1 4 k
  | .brlt k => encBR 0 4 k
  | .brhs k => encBR 0 5 k
  | .brhc k => encBR 1 5 k
  | .brts k => encBR 0 6 k
  | .brtc k => encBR 1 6 k
  | .brvs k => encBR 0 3 k
  | .brvc k => encBR 1 3 k
  | .brie k => encBR 0 7 k
  | .brid k => encBR 1 7 k
  | .movw rd rr => [BitVec.ofNat 16 (0x0100 + rd.val / 2 * 16 + rr.val / 2)]
  | .lpmZ rd => [encLS 0 rd 0b0100]
  | .lpmZInc rd => [encLS 0 rd 0b0101]
  | .spm => [0x95E8]
  | .brk => [0x9598]
  | .mul rd rr => encRR 0b100111 rd rr
  | .muls rd rr => [BitVec.ofNat 16 (0x0200 + rd.val % 16 * 16 + rr.val % 16)]
  | .mulsu rd rr => encMUL3 0 0 rd rr
  | .fmul rd rr => encMUL3 0 1 rd rr
  | .fmuls rd rr => encMUL3 1 0 rd rr
  | .fmulsu rd rr => encMUL3 1 1 rd rr
  | .jmp k => encABS22 0 k
  | .call k => encABS22 1 k

/-- The core instruction a spelling stands for (R112); a core instruction is its own. -/
def Instr.base : Instr → Instr
  | .ldY rd => .lddY rd 0
  | .ldZ rd => .lddZ rd 0
  | .stY rr => .stdY 0 rr
  | .stZ rr => .stdZ 0 rr
  | .sbr rd k => .ori rd k
  | .cbr rd k => .andi rd (0xFF - k)
  | .lsl rd => .add rd rd
  | .rol rd => .adc rd rd
  | .sec => .bset 0
  | .clc => .bclr 0
  | .sen => .bset 2
  | .cln => .bclr 2
  | .sez => .bset 1
  | .clz => .bclr 1
  | .sei => .bset 7
  | .cli => .bclr 7
  | .ses => .bset 4
  | .cls => .bclr 4
  | .sev => .bset 3
  | .clv => .bclr 3
  | .setT => .bset 6
  | .clt => .bclr 6
  | .seh => .bset 5
  | .clh => .bclr 5
  | .tst rd => .and rd rd
  | .clr rd => .eor rd rd
  | .ser rd => .ldi rd 0xFF
  | .breq k => .brbs 1 k
  | .brne k => .brbc 1 k
  | .brcs k => .brbs 0 k
  | .brcc k => .brbc 0 k
  | .brsh k => .brbc 0 k
  | .brlo k => .brbs 0 k
  | .brmi k => .brbs 2 k
  | .brpl k => .brbc 2 k
  | .brge k => .brbc 4 k
  | .brlt k => .brbs 4 k
  | .brhs k => .brbs 5 k
  | .brhc k => .brbc 5 k
  | .brts k => .brbs 6 k
  | .brtc k => .brbc 6 k
  | .brvs k => .brbs 3 k
  | .brvc k => .brbc 3 k
  | .brie k => .brbs 7 k
  | .brid k => .brbc 7 k
  | .mov rd rr => .mov rd rr
  | .ldi rd k => .ldi rd k
  | .ldX rd => .ldX rd
  | .ldXInc rd => .ldXInc rd
  | .ldXDec rd => .ldXDec rd
  | .ldYInc rd => .ldYInc rd
  | .ldYDec rd => .ldYDec rd
  | .lddY rd q => .lddY rd q
  | .ldZInc rd => .ldZInc rd
  | .ldZDec rd => .ldZDec rd
  | .lddZ rd q => .lddZ rd q
  | .lds rd k => .lds rd k
  | .stX rr => .stX rr
  | .stXInc rr => .stXInc rr
  | .stXDec rr => .stXDec rr
  | .stYInc rr => .stYInc rr
  | .stYDec rr => .stYDec rr
  | .stdY q rr => .stdY q rr
  | .stZInc rr => .stZInc rr
  | .stZDec rr => .stZDec rr
  | .stdZ q rr => .stdZ q rr
  | .sts k rr => .sts k rr
  | .lpm => .lpm
  | .inPort rd a => .inPort rd a
  | .outPort a rr => .outPort a rr
  | .push rr => .push rr
  | .pop rd => .pop rd
  | .sbi a b => .sbi a b
  | .cbi a b => .cbi a b
  | .lsr rd => .lsr rd
  | .ror rd => .ror rd
  | .asr rd => .asr rd
  | .swap rd => .swap rd
  | .bset s => .bset s
  | .bclr s => .bclr s
  | .bst rr b => .bst rr b
  | .bld rd b => .bld rd b
  | .nop => .nop
  | .sleep => .sleep
  | .wdr => .wdr
  | .add rd rr => .add rd rr
  | .adc rd rr => .adc rd rr
  | .adiw rd k => .adiw rd k
  | .sub rd rr => .sub rd rr
  | .subi rd k => .subi rd k
  | .sbc rd rr => .sbc rd rr
  | .sbci rd k => .sbci rd k
  | .sbiw rd k => .sbiw rd k
  | .and rd rr => .and rd rr
  | .andi rd k => .andi rd k
  | .or rd rr => .or rd rr
  | .ori rd k => .ori rd k
  | .eor rd rr => .eor rd rr
  | .com rd => .com rd
  | .neg rd => .neg rd
  | .inc rd => .inc rd
  | .dec rd => .dec rd
  | .rjmp k => .rjmp k
  | .ijmp => .ijmp
  | .rcall k => .rcall k
  | .icall => .icall
  | .ret => .ret
  | .reti => .reti
  | .cpse rd rr => .cpse rd rr
  | .cp rd rr => .cp rd rr
  | .cpc rd rr => .cpc rd rr
  | .cpi rd k => .cpi rd k
  | .sbrc rr b => .sbrc rr b
  | .sbrs rr b => .sbrs rr b
  | .sbic a b => .sbic a b
  | .sbis a b => .sbis a b
  | .brbs s k => .brbs s k
  | .brbc s k => .brbc s k
  | .movw rd rr => .movw rd rr
  | .lpmZ rd => .lpmZ rd
  | .lpmZInc rd => .lpmZInc rd
  | .spm => .spm
  | .brk => .brk
  | .mul rd rr => .mul rd rr
  | .muls rd rr => .muls rd rr
  | .mulsu rd rr => .mulsu rd rr
  | .fmul rd rr => .fmul rd rr
  | .fmuls rd rr => .fmuls rd rr
  | .fmulsu rd rr => .fmulsu rd rr
  | .jmp k => .jmp k
  | .call k => .call k

/-- The instruction is a core instruction, one the decoder can yield (R113). -/
def Instr.core (i : Instr) : Bool := i.base == i

end Sys2Proof
end

