-- ==== Sys2Proof/Machine/Flags.lean ====
section
/-! DEFINITION. SREG and the flag computations (10_state.md R24, R27; 42_arithmetic_logic.md R219 and the
flag lines of 41_, 42_, 44_). Each takes SREG before the instruction and gives SREG after it; a flag it
does not name keeps its value (00_scope.md R10). -/

namespace Sys2Proof.Machine

/-- The flags of SREG (R24). -/
inductive Flag
  | c | z | n | v | s | h | t | i
deriving DecidableEq, Repr

/-- A flag's bit number in SREG (R24). -/
def Flag.bit : Flag → BitNo
  | .c => 0 | .z => 1 | .n => 2 | .v => 3 | .s => 4 | .h => 5 | .t => 6 | .i => 7

/-- Bit `n` of a byte (R7). -/
def byteBit (v : Byte) (n : BitNo) : Bool := v.getLsbD n.val

/-- The byte with bit `n` replaced. -/
def setByteBit (v : Byte) (n : BitNo) (b : Bool) : Byte :=
  if b then v ||| (1#8 <<< n.val) else v &&& ~~~(1#8 <<< n.val)

/-- The value of a flag in an SREG byte. -/
def flagOf (sreg : Byte) (f : Flag) : Bool := byteBit sreg f.bit

/-- SREG with one flag replaced. -/
def setFlag (sreg : Byte) (f : Flag) (b : Bool) : Byte := setByteBit sreg f.bit b

/-- SREG after a list of flag assignments, in order. -/
def setFlagList (sreg : Byte) : List (Flag × Bool) → Byte
  | [] => sreg
  | (f, b) :: fs => setFlagList (setFlag sreg f b) fs

/-- `AddFlags(a, b, R)` (R219). -/
def addFlags (sreg a b r : Byte) : Byte :=
  let a3 := byteBit a 3; let b3 := byteBit b 3; let r3 := byteBit r 3
  let a7 := byteBit a 7; let b7 := byteBit b 7; let r7 := byteBit r 7
  let v := (a7 && b7 && !r7) || (!a7 && !b7 && r7)
  setFlagList sreg
    [(.h, (a3 && b3) || (b3 && !r3) || (!r3 && a3)),
     (.c, (a7 && b7) || (b7 && !r7) || (!r7 && a7)),
     (.v, v), (.n, r7), (.z, r == 0), (.s, r7 ^^ v)]

/-- `SubFlags(a, b, R, keepZ)` (R219). -/
def subFlags (sreg a b r : Byte) (keepZ : Bool) : Byte :=
  let a3 := byteBit a 3; let b3 := byteBit b 3; let r3 := byteBit r 3
  let a7 := byteBit a 7; let b7 := byteBit b 7; let r7 := byteBit r 7
  let v := (a7 && !b7 && !r7) || (!a7 && b7 && r7)
  setFlagList sreg
    [(.h, (!a3 && b3) || (b3 && r3) || (r3 && !a3)),
     (.c, (!a7 && b7) || (b7 && r7) || (r7 && !a7)),
     (.v, v), (.n, r7),
     (.z, if keepZ then (r == 0) && flagOf sreg .z else r == 0),
     (.s, r7 ^^ v)]

/-- `LogicFlags(R)` (R219). -/
def logicFlags (sreg r : Byte) : Byte :=
  setFlagList sreg [(.v, false), (.n, byteBit r 7), (.z, r == 0), (.s, byteBit r 7 ^^ false)]

/-- ADIW's flags from the pair before and after (R222). -/
def adiwFlags (sreg : Byte) (w r : Word) : Byte :=
  let v := !w.getLsbD 15 && r.getLsbD 15
  setFlagList sreg
    [(.v, v), (.c, !r.getLsbD 15 && w.getLsbD 15), (.n, r.getLsbD 15), (.z, r == 0),
     (.s, r.getLsbD 15 ^^ v)]

/-- SBIW's flags from the pair before and after (R227). -/
def sbiwFlags (sreg : Byte) (w r : Word) : Byte :=
  let v := w.getLsbD 15 && !r.getLsbD 15
  setFlagList sreg
    [(.v, v), (.c, r.getLsbD 15 && !w.getLsbD 15), (.n, r.getLsbD 15), (.z, r == 0),
     (.s, r.getLsbD 15 ^^ v)]

/-- COM's flags: those of the logic group, and C set (R233). -/
def comFlags (sreg r : Byte) : Byte := setFlag (logicFlags sreg r) .c true

/-- NEG's flags from the operand and the result (R234). -/
def negFlags (sreg a r : Byte) : Byte :=
  let v := r == 0x80
  setFlagList sreg
    [(.h, byteBit r 3 || byteBit a 3), (.v, v), (.c, r != 0), (.n, byteBit r 7), (.z, r == 0),
     (.s, byteBit r 7 ^^ v)]

/-- INC's and DEC's flags: V is set for the one result that overflows (R235: $80, R236: $7F). -/
def stepFlags (sreg r overflow : Byte) : Byte :=
  let v := r == overflow
  setFlagList sreg [(.v, v), (.n, byteBit r 7), (.z, r == 0), (.s, byteBit r 7 ^^ v)]

/-- The flags of a shift or rotate from the bit shifted out and the result: V is N xor C (R175 to R178). -/
def shiftFlags (sreg : Byte) (c : Bool) (r : Byte) : Byte :=
  let n := byteBit r 7
  let v := n ^^ c
  setFlagList sreg [(.c, c), (.n, n), (.v, v), (.z, r == 0), (.s, n ^^ v)]

/-- The flags of LSL and ROL: those of a shift, and H from bit 3 of the operand (R174, R176). -/
def shiftLeftFlags (sreg v r : Byte) : Byte :=
  shiftFlags (setFlag sreg .h (byteBit v 3)) (byteBit v 7) r

/-- CLR's fixed flags (R238). -/
def clrFlags (sreg : Byte) : Byte :=
  setFlagList sreg [(.v, false), (.n, false), (.z, true), (.s, false)]

/-- The flags of the multiplies: C is bit 15 of the product before any shift, Z tells whether the value
written is zero (R316 to R321). -/
def mulFlags (sreg : Byte) (p r : Word) : Byte :=
  setFlagList sreg [(.c, p.getLsbD 15), (.z, r == 0)]

end Sys2Proof.Machine
end

