-- ==== Sys2Proof/Machine/Memory.lean ====
section
/-! DEFINITION. A memory as a list of cells in one canonical form: addresses strictly rising, no cell
equal to what an unlisted address reads as. The SRAM and the program memory are two such lists
(20_memory.md R60, R66, R77: separate memories). -/

namespace Sys2Proof.Machine

/-- The listed cells of a memory. -/
abbrev Memory := List Host.Cell

/-- The listed byte at an address, if there is one. -/
def Memory.lookup : Memory → Nat → Option Byte
  | [], _ => none
  | (k, b) :: m, a => if k = a then some b else Memory.lookup m a

/-- The byte at an address; `unlisted` is what an unlisted address reads as. -/
def Memory.read (unlisted : Option Byte) (m : Memory) (a : Nat) : Option Byte :=
  match Memory.lookup m a with
  | some b => some b
  | none => unlisted

/-- The memory with the cell at `a` listed as `v`. -/
def Memory.insert : Memory → Nat → Byte → Memory
  | [], a, v => [(a, v)]
  | (k, b) :: m, a, v =>
    if a < k then (a, v) :: (k, b) :: m
    else if a = k then (a, v) :: m
    else (k, b) :: Memory.insert m a v

/-- The memory with no cell listed at `a`. -/
def Memory.erase : Memory → Nat → Memory
  | [], _ => []
  | (k, b) :: m, a => if k = a then m else (k, b) :: Memory.erase m a

/-- The memory after the byte `v` is stored at `a`, in canonical form. -/
def Memory.write (unlisted : Option Byte) (m : Memory) (a : Nat) (v : Byte) : Memory :=
  if unlisted = some v then Memory.erase m a else Memory.insert m a v

/-- Every listed address lies above `lo`, and the addresses rise strictly. -/
def Memory.above (lo : Nat) : Memory → Bool
  | [] => true
  | (k, _) :: m => decide (lo < k) && Memory.above k m

/-- The listed addresses rise strictly. -/
def Memory.rising : Memory → Bool
  | [] => true
  | (k, _) :: m => Memory.above k m

/-- The canonical form. -/
def Memory.wf (unlisted : Option Byte) (m : Memory) : Bool :=
  Memory.rising m && m.all fun c => unlisted != some c.2

/-- Every listed address lies in the range `lo` to `hi`. -/
def Memory.within (lo hi : Nat) (m : Memory) : Bool :=
  m.all fun c => decide (lo ≤ c.1) && decide (c.1 ≤ hi)

end Sys2Proof.Machine
end

