-- ==== Sys2Proof/Machine/State.lean ====
section
/-! DEFINITION. The state of the machine, the reasons a step can stop, and the state after reset
(10_state.md; 60_exceptions.md R331, R342). -/

namespace Sys2Proof.Machine

/-- The direction of an I/O access (60_exceptions.md R331). -/
inductive AccessDir
  | read
  | write
deriving DecidableEq, Repr

/-- The model's faults (60_exceptions.md R331). None is an event of the chip; each is safe: the model stops
where the chip goes on in a way no source tells. -/
inductive Fault
  /-- A read of an SRAM byte nothing has written since reset (10_state.md R48). Raised by the data-space read.
  Safe: the chip returns some byte. -/
  | uninitialisedRead (a : Word)
  /-- A data-space access outside registers, I/O block and SRAM (20_memory.md R63). Raised by the data-space read and
  write. Safe. -/
  | dataAddressOutOfRange (a : Word)
  /-- A program-memory byte address above FLASHEND: by LPM (20_memory.md R66) or a fetch (43_branch.md R259); by a
  taken skip that has to measure a word there it is the model's choice, DESIGN CHOICE (entry 22). Safe. -/
  | progAddressOutOfRange (b : Nat)
  /-- A word that encodes no instruction of the profile, fetched or to be measured by a skip (30_encoding.md R116).
  Safe. -/
  | reservedOpcode (pc w : Word)
  /-- A modifying load, store or LPM whose data register or effective address is a register of its own pointer
  (40_data_transfer.md R160). Safe. -/
  | undefinedOperandCombination (pc : Word)
  /-- An access to an I/O address without a described register, or a write to PINx (60_exceptions.md R349). Safe. -/
  | unmodelledIo (a : IoAddr) (dir : AccessDir)
  /-- SPM or BREAK (44_mega_extension.md R314, R315). Raised by their meanings. Safe. -/
  | unmodelledInstruction (mnemonic : String)
deriving DecidableEq, Repr

/-- Why an instruction has no meaning. -/
inductive Refusal
  /-- `exec` has no meaning for the instruction yet. Raised by `exec`'s refused arms only. Safe. -/
  | notModelled (mnemonic : String)
deriving DecidableEq, Repr

/-- The two ports of P2313 (10_state.md R43). -/
inductive Port
  | b
  | d
deriving DecidableEq, Repr

/-- The flags the environment may set (60_exceptions.md R342, R346). -/
inductive EnvFlag
  | ocf1a
  | icf1
deriving DecidableEq, Repr

/-- What the environment may do at an instruction boundary (60_exceptions.md R342; `reset`:
70_reset_and_hazards.md R380). -/
inductive EnvEvent
  /-- `EnvDrive(x, n, v)`: the pin is driven 0 or 1 from outside, or not driven. -/
  | drive (x : Port) (n : BitNo) (v : Option Bool)
  /-- `EnvTick0`: a prescaler tick of Timer/Counter0. -/
  | tick0
  /-- `EnvTick1`: a prescaler tick of Timer/Counter1. -/
  | tick1
  /-- `EnvFlag(f)`: a compare match or capture of Timer/Counter1. -/
  | flag (f : EnvFlag)
  /-- `EnvFloat(x, n, v)`: the level the pin has while it floats; of a pin that does not float now, the level it
  takes when it next does, DESIGN CHOICE (entry 33). -/
  | float (x : Port) (n : BitNo) (v : Bool)
  /-- A reset of the chip (entry 10). -/
  | reset
deriving DecidableEq, Repr

/-- The outside of a port's pins, bit `n` for pin `n` (60_exceptions.md R340): `ext(x,n)` is bit `n` of `drive`
where bit `n` of `driven` is 1, and none where it is 0; `float` is the level a floating pin takes. -/
structure PinDrive where
  driven : Byte
  drive : Byte
  float : Byte
deriving DecidableEq, Repr

/-- The stored device registers (10_state.md R35 to R43). -/
structure IoFile where
  /-- General Interrupt Mask (R37). -/
  gimsk : Byte
  /-- General Interrupt Flag Register (R38). -/
  gifr : Byte
  /-- Timer/Counter Interrupt Mask Register (R39). -/
  timsk : Byte
  /-- Timer/Counter Interrupt Flag Register (R40). -/
  tifr : Byte
  /-- MCU Control Register (R36). -/
  mcucr : Byte
  /-- Timer/Counter0 Control Register (R41). -/
  tccr0 : Byte
  /-- Timer/Counter0 count (R41). -/
  tcnt0 : Byte
  /-- Timer/Counter1 Control Register A (R42). -/
  tccr1a : Byte
  /-- Timer/Counter1 Control Register B (R42). -/
  tccr1b : Byte
  /-- Timer/Counter1 count, TCNT1H:TCNT1L (R42). -/
  tcnt1 : Word
  /-- Timer/Counter1 Output Compare Register A, OCR1AH:OCR1AL (R42). -/
  ocr1a : Word
  /-- Timer/Counter1 Input Capture Register, ICR1H:ICR1L (R42). -/
  icr1 : Word
  /-- Port B output (R43). -/
  portB : Byte
  /-- Port B direction (R43). -/
  ddrB : Byte
  /-- Port D output (R43). -/
  portD : Byte
  /-- Port D direction (R43). -/
  ddrD : Byte
deriving DecidableEq, Repr

/-- The machine's state (10_state.md). -/
structure State where
  /-- The implementation's parameters (00_scope.md R6); no step changes them. -/
  cfg : Config
  /-- R0 to R31 (R20). -/
  regs : Vector Byte 32
  /-- The PC, a word address below 2^PCW (R28). -/
  pc : Word
  /-- The status register, bits 0 to 7 = C Z N V S H T I (R24). -/
  sreg : Byte
  /-- The stack pointer, SPH:SPL, below 2^SPW (R30). -/
  sp : Word
  /-- The stored device registers (R35). -/
  io : IoFile
  /-- The outside of port B's pins (60_exceptions.md R340). -/
  pinB : PinDrive
  /-- The outside of port D's pins (60_exceptions.md R340). -/
  pinD : PinDrive
  /-- `prev`: the levels of PD2 to PD5 at the last `PinsChanged` (R46; 60_exceptions.md R342). -/
  prev : Byte
  /-- The SRAM by data address (20_memory.md R60). -/
  sram : Memory
  /-- The program memory by byte address, two bytes a word (20_memory.md R66). -/
  flash : Memory
  /-- Set by SLEEP with SE = 1, cleared by an interrupt (R46; 60_exceptions.md R366). -/
  sleeping : Bool
  /-- The one-instruction interrupt delay (R46; 60_exceptions.md R355). -/
  inhibit : Bool
  /-- The model's own field: the environment's events to come, one batch an instruction boundary (entry 7). -/
  inputs : List (List EnvEvent)
deriving DecidableEq, Repr

/-- Every device register 0 (10_state.md R47). -/
def IoFile.reset : IoFile :=
  { gimsk := 0, gifr := 0, timsk := 0, tifr := 0, mcucr := 0, tccr0 := 0, tcnt0 := 0, tccr1a := 0,
    tccr1b := 0, tcnt1 := 0, ocr1a := 0, icr1 := 0, portB := 0, ddrB := 0, portD := 0, ddrD := 0 }

/-- No pin driven, floating pins low (entry 9). -/
def PinDrive.reset : PinDrive := { driven := 0, drive := 0, float := 0 }

/-- The state after reset of a device with parameters `c` (10_state.md R47; registers: entry 1), with nothing in
program memory, no pin driven and no event to come. -/
def State.resetOf (c : Config) : State :=
  { cfg := c, regs := Vector.replicate 32 0, pc := 0, sreg := 0, sp := 0, io := IoFile.reset,
    pinB := PinDrive.reset, pinD := PinDrive.reset, prev := 0, sram := [], flash := [],
    sleeping := false, inhibit := false, inputs := [] }

/-- The AT90S2313 after reset (10_state.md R47, entry 4). -/
def State.reset : State := State.resetOf Config.p2313

end Sys2Proof.Machine
end

