-- ==== Sys2Proof/Machine/Operands.lean ====
section
/-! DEFINITION. The operand forms: working registers and their pairs, the PC, SREG, the stack pointer, and
the pointer addressing of the loads and stores (10_state.md R20 to R33; 20_memory.md R64). -/

namespace Sys2Proof.Machine

/-! ## Bytes and words -/

/-- `high:low` (00_scope.md R7). -/
def joinBytes (hi lo : Byte) : Word := BitVec.ofNat 16 (hi.toNat * 256 + lo.toNat)

/-- Bits 15 to 8. -/
def hiByte (w : Word) : Byte := BitVec.ofNat 8 (w.toNat / 256)

/-- Bits 7 to 0. -/
def loByte (w : Word) : Byte := BitVec.ofNat 8 w.toNat

/-- The word modulo `2^n`. -/
def wrapTo (n : Nat) (w : Word) : Word := BitVec.ofNat 16 (w.toNat % 2 ^ n)

/-! ## Working registers -/

/-- `x[i]` (00_scope.md R9). -/
def State.reg (s : State) (i : Reg) : Byte := s.regs[i]

/-- `x[i] <- v` (00_scope.md R9). -/
def State.setReg (s : State) (i : Reg) (v : Byte) : State := { s with regs := s.regs.set i v }

/-- The register after `i`, the high one of the pair whose low register is `i` (10_state.md R21). -/
def pairHigh (i : Reg) : Reg := Fin.ofNat 32 (i.val + 1)

/-- The word `x[i+1]:x[i]` (10_state.md R21). -/
def State.pair (s : State) (i : Reg) : Word := joinBytes (s.reg (pairHigh i)) (s.reg i)

/-- Writes the word `x[i+1]:x[i]`, the low byte to the lower register (20_memory.md R68). -/
def State.setPair (s : State) (i : Reg) (w : Word) : State :=
  (s.setReg i (loByte w)).setReg (pairHigh i) (hiByte w)

/-- The pointer registers (10_state.md R21). -/
inductive Ptr
  | x | y | z
deriving DecidableEq, Repr

/-- The low register of a pointer: R26, R28, R30 (10_state.md R21). -/
def Ptr.low : Ptr → Reg
  | .x => 26 | .y => 28 | .z => 30

/-- `X`, `Y`, `Z` (00_scope.md R9). -/
def State.ptr (s : State) (p : Ptr) : Word := s.pair p.low

/-- `X <- v`, `Y <- v`, `Z <- v` (00_scope.md R9). -/
def State.setPtr (s : State) (p : Ptr) (v : Word) : State := s.setPair p.low v

/-- The register is one of the pointer's two (40_data_transfer.md R160). -/
def Ptr.holds (p : Ptr) (r : Reg) : Bool := r == p.low || r == pairHigh p.low

/-- The data address is that of one of the pointer's two registers (40_data_transfer.md R160 (b)). -/
def Ptr.holdsAddr (p : Ptr) (a : Word) : Bool :=
  decide (a.toNat = p.low.val ∨ a.toNat = (pairHigh p.low).val)

/-! ## PC, SREG, SP -/

/-- `pc <- t`, that is `t mod 2^PCW` (00_scope.md R9; 10_state.md R29). -/
def State.setPc (s : State) (t : Word) : State := { s with pc := wrapTo s.cfg.pcw t }

/-- The PC value `n` words on (10_state.md R29). -/
def State.pcPlus (s : State) (n : Word) : Word := wrapTo s.cfg.pcw (s.pc + n)

/-- `pc <- pc + n`: with `n` the length in words this is `pc <- next` (10_state.md R29). -/
def State.advance (s : State) (n : Word) : State := s.setPc (s.pc + n)

/-- A flag of SREG. -/
def State.flag (s : State) (f : Flag) : Bool := flagOf s.sreg f

/-- SREG after an instruction's flag computation, which leaves I as it was. -/
def State.setFlags (s : State) (sreg : Byte) : State := { s with sreg := sreg }

/-- A write of SREG as data or of its I bit: a write that finds I = 0 and leaves I = 1 also sets `inhibit`
(60_exceptions.md R355). -/
def State.writeSreg (s : State) (v : Byte) : State :=
  { s with sreg := v, inhibit := s.inhibit || (!flagOf s.sreg .i && flagOf v .i) }

/-- `SP <- v mod 2^SPW` (10_state.md R30, R32). -/
def State.setSp (s : State) (v : Word) : State := { s with sp := wrapTo s.cfg.spw v }

/-! ## Addresses -/

/-- `(Y + zext_16(q)) mod $10000`, and the same of Z (20_memory.md R64). -/
def State.dispAddr (s : State) (p : Ptr) (q : BitVec 6) : Word := s.ptr p + q.setWidth 16

/-- The I/O address of SBI, CBI, SBIC, SBIS, 0 to 31 (30_encoding.md R108). -/
def lowIoAddr (a : BitVec 5) : IoAddr := a.setWidth 6

/-- How a load or store uses its pointer (40_data_transfer.md R132 to R153). -/
inductive PtrMode
  /-- `X`: the pointer is left alone. -/
  | plain
  /-- `X+`: the pointer is incremented after the access. -/
  | postInc
  /-- `-X`: the pointer is decremented before the access. -/
  | preDec
deriving DecidableEq, Repr

/-- The effective address of a load or store through a pointer (40_data_transfer.md R132 to R153). -/
def State.effAddr (s : State) (p : Ptr) : PtrMode → Word
  | .plain | .postInc => s.ptr p
  | .preDec => s.ptr p - 1

/-- The mode changes the pointer. -/
def PtrMode.modifies : PtrMode → Bool
  | .plain => false
  | .postInc | .preDec => true

end Sys2Proof.Machine
end

