-- ==== Sys2Proof/Machine/Devices.lean ====
section
/-! DEFINITION. The devices of P2313: port pins, external interrupts, the two timer/counters, the interrupt
requests, the I/O registers, and the environment's events (10_state.md R35 to R44; 60_exceptions.md R340
to R354). -/

namespace Sys2Proof.Machine

/-! ## Port pins (R340) -/

/-- D0's table of a pin's two flip-flops (R340). -/
inductive PinMode
  /-- DD = 0, PORT = 0: input, tri-state. -/
  | triState
  /-- DD = 0, PORT = 1: input with pull-up. -/
  | pullUp
  /-- DD = 1, PORT = 0: push-pull zero output. -/
  | outZero
  /-- DD = 1, PORT = 1: push-pull one output. -/
  | outOne
deriving DecidableEq, Repr

/-- The mode the flip-flops DDxn and PORTxn put a pin in (R340). -/
def pinMode (dd port : Bool) : PinMode :=
  match dd, port with
  | false, false => .triState
  | false, true => .pullUp
  | true, false => .outZero
  | true, true => .outOne

/-- The drive `ext(x,n)` of a pin (R340). -/
def PinDrive.ext (p : PinDrive) (n : BitNo) : Option Bool :=
  if byteBit p.driven n then some (byteBit p.drive n) else none

/-- `level(x,n)` (R340). -/
def pinLevel (mode : PinMode) (ext : Option Bool) (float : Bool) : Bool :=
  match mode, ext with
  | .outZero, _ => false
  | .outOne, _ => true
  | _, some v => v
  | .pullUp, none => true
  | .triState, none => float

/-- Bit `n` of the levels of a port (R340). -/
def levelBit (ddr port : Byte) (p : PinDrive) (n : BitNo) : Bool :=
  pinLevel (pinMode (byteBit ddr n) (byteBit port n)) (p.ext n) (byteBit p.float n)

/-- A byte from its bits, bit 0 first. -/
def byteOfBits (f : BitNo → Bool) : Byte :=
  [0, 1, 2, 3, 4, 5, 6, 7].foldl (fun v n => setByteBit v n (f n)) 0

/-- `level(x,7..0)` of a port (R340). -/
def portLevels (ddr port : Byte) (p : PinDrive) : Byte := byteOfBits (levelBit ddr port p)

/-- The levels of port B's pins. -/
def State.levelsB (s : State) : Byte := portLevels s.io.ddrB s.io.portB s.pinB

/-- The levels of port D's pins PD0 to PD6; bit 7 has no pin and reads 0 (10_state.md R43; R348). -/
def State.levelsD (s : State) : Byte := portLevels s.io.ddrD s.io.portD s.pinD &&& 0x7F

/-! ## Timer/counters (R344) -/

/-- `Count0()` (R344). -/
def IoFile.count0 (io : IoFile) : IoFile :=
  let t := io.tcnt0 + 1
  { io with tcnt0 := t, tifr := if t = 0 then setByteBit io.tifr 1 true else io.tifr }

/-- `Count1()` (R344). -/
def IoFile.count1 (io : IoFile) : IoFile :=
  let t := io.tcnt1 + 1
  { io with tcnt1 := t, tifr := if t = 0 then setByteBit io.tifr 7 true else io.tifr }

/-- The clock-select bits CSn2:CSn0 of a timer's control register (10_state.md R41, R42). -/
def clockSelect (tccr : Byte) : Nat := tccr.toNat % 8

/-- The clock select counts prescaled system clocks (R342: 001 to 101). -/
def prescaled (cs : Nat) : Bool := decide (1 ≤ cs ∧ cs ≤ 5)

/-- The change of a timer pin counts: CS = 110 each falling edge, CS = 111 each rising edge (R344). -/
def countsEdge (cs : Nat) (old new : Bool) : Bool :=
  (cs == 6 && old && !new) || (cs == 7 && !old && new)

/-! ## External interrupts (R343) -/

/-- ISCn1:ISCn0 of INT0 (`n = 0`) and INT1 (`n = 1`) in MCUCR (10_state.md R36). -/
def senseControl (mcucr : Byte) (n : Nat) : Nat := mcucr.toNat / 4 ^ n % 4

/-- A change of the pin from `old` to `new` sets INTFn (R343). -/
def setsIntFlag (isc : Nat) (old new : Bool) : Bool :=
  (isc == 0b10 && old && !new) || (isc == 0b11 && !old && new) || (isc == 0b01 && old != new)

/-- Sets a flag of GIFR if the condition holds. -/
def IoFile.raiseGifr (io : IoFile) (n : BitNo) (c : Bool) : IoFile :=
  if c then { io with gifr := setByteBit io.gifr n true } else io

/-- What the changes of PD2, PD3 (R343) and PD4, PD5 (R344) do, from the levels remembered and now. -/
def IoFile.pinEdges (io : IoFile) (old new : Byte) : IoFile :=
  let io := io.raiseGifr 6 (setsIntFlag (senseControl io.mcucr 0) (byteBit old 2) (byteBit new 2))
  let io := io.raiseGifr 7 (setsIntFlag (senseControl io.mcucr 1) (byteBit old 3) (byteBit new 3))
  let io := if countsEdge (clockSelect io.tccr0) (byteBit old 4) (byteBit new 4) then io.count0 else io
  if countsEdge (clockSelect io.tccr1b) (byteBit old 5) (byteBit new 5) then io.count1 else io

/-- The levels `prev` remembers: those of PD2 to PD5 (R342). -/
def State.watchedLevels (s : State) : Byte := s.levelsD &&& 0x3C

/-- `PinsChanged()` (R342). -/
def State.pinsChanged (s : State) : State :=
  { s with io := s.io.pinEdges s.prev s.watchedLevels, prev := s.watchedLevels }

/-! ## I/O registers (R348) -/

/-- The register at an I/O address, if the device has one there (10_state.md R35). -/
def lookupIo (a : IoAddr) : List (IoReg × IoAddr) → Option IoReg
  | [] => none
  | (r, b) :: m => if b = a then some r else lookupIo a m

/-- The register at an I/O address of the machine (10_state.md R35). -/
def State.ioRegAt (s : State) (a : IoAddr) : Option IoReg := lookupIo a s.cfg.ioMap

/-- `IoRegRead`: the column "Read returns" of R348. -/
def State.ioRegRead (s : State) : IoReg → Byte
  | .sreg => s.sreg
  | .spl => loByte s.sp
  | .sph => hiByte s.sp
  | .gimsk => s.io.gimsk &&& 0xC0
  | .gifr => s.io.gifr &&& 0xC0
  | .timsk => s.io.timsk &&& 0xCA
  | .tifr => s.io.tifr &&& 0xCA
  | .mcucr => s.io.mcucr &&& 0x3F
  | .tccr0 => s.io.tccr0 &&& 0x07
  | .tcnt0 => s.io.tcnt0
  | .tccr1a => s.io.tccr1a &&& 0xC3
  | .tccr1b => s.io.tccr1b &&& 0xCF
  | .tcnt1h => hiByte s.io.tcnt1
  | .tcnt1l => loByte s.io.tcnt1
  | .ocr1ah => hiByte s.io.ocr1a
  | .ocr1al => loByte s.io.ocr1a
  | .icr1h => hiByte s.io.icr1
  | .icr1l => loByte s.io.icr1
  | .portB => s.io.portB
  | .ddrB => s.io.ddrB
  | .pinB => s.levelsB
  | .portD => s.io.portD &&& 0x7F
  | .ddrD => s.io.ddrD &&& 0x7F
  | .pinD => s.levelsD

/-- The state with its device registers replaced. -/
def State.setIo (s : State) (io : IoFile) : State := { s with io := io }

/-- `IoRegWrite`: the column "Write of v does" of R348; none where the write is not modelled (PINx, R349). -/
def State.ioRegWrite (s : State) (v : Byte) : IoReg → Option State
  | .sreg => some (s.writeSreg v)
  | .spl => some (s.setSp (joinBytes (hiByte s.sp) v))
  | .sph => some (s.setSp (joinBytes v (loByte s.sp)))
  | .gimsk => some (s.setIo { s.io with gimsk := v &&& 0xC0 })
  | .gifr => some (s.setIo { s.io with gifr := s.io.gifr &&& ~~~v })
  | .timsk => some (s.setIo { s.io with timsk := v &&& 0xCA })
  | .tifr => some (s.setIo { s.io with tifr := s.io.tifr &&& ~~~v })
  | .mcucr => some (s.setIo { s.io with mcucr := v &&& 0x3F })
  | .tccr0 => some (s.setIo { s.io with tccr0 := v &&& 0x07 })
  | .tcnt0 => some (s.setIo { s.io with tcnt0 := v })
  | .tccr1a => some (s.setIo { s.io with tccr1a := v &&& 0xC3 })
  | .tccr1b => some (s.setIo { s.io with tccr1b := v &&& 0xCF })
  | .tcnt1h => some (s.setIo { s.io with tcnt1 := joinBytes v (loByte s.io.tcnt1) })
  | .tcnt1l => some (s.setIo { s.io with tcnt1 := joinBytes (hiByte s.io.tcnt1) v })
  | .ocr1ah => some (s.setIo { s.io with ocr1a := joinBytes v (loByte s.io.ocr1a) })
  | .ocr1al => some (s.setIo { s.io with ocr1a := joinBytes (hiByte s.io.ocr1a) v })
  | .icr1h => some (s.setIo { s.io with icr1 := joinBytes v (loByte s.io.icr1) })
  | .icr1l => some (s.setIo { s.io with icr1 := joinBytes (hiByte s.io.icr1) v })
  | .portB => some (s.setIo { s.io with portB := v })
  | .ddrB => some (s.setIo { s.io with ddrB := v })
  | .portD => some (s.setIo { s.io with portD := v &&& 0x7F }).pinsChanged
  | .ddrD => some (s.setIo { s.io with ddrD := v &&& 0x7F }).pinsChanged
  | .pinB => none
  | .pinD => none

/-! ## Interrupt requests (R343, R345, R346, R350, R353) -/

/-- `request(INTn)`: the low level itself while ISCn = 00, else the flag (R343). -/
def State.intRequest (s : State) (n : Nat) (pin flag : BitNo) : Bool :=
  if senseControl s.io.mcucr n = 0 then !byteBit s.levelsD pin else byteBit s.io.gifr flag

/-- `request(n)` of an interrupt source (R351, column "Request"). -/
def State.request (s : State) : Irq → Bool
  | .int0 => s.intRequest 0 2 6
  | .int1 => s.intRequest 1 3 7
  | .icp1 => byteBit s.io.tifr 3
  | .oc1 => byteBit s.io.tifr 6
  | .ovf1 => byteBit s.io.tifr 7
  | .ovf0 => byteBit s.io.tifr 1
  | .urxc => false
  | .udre => false
  | .utxc => false
  | .aci => false

/-- `enable(n)` of an interrupt source (R351, column "Enable"; R350 for the last four). -/
def State.enabled (s : State) : Irq → Bool
  | .int0 => byteBit s.io.gimsk 6
  | .int1 => byteBit s.io.gimsk 7
  | .icp1 => byteBit s.io.timsk 3
  | .oc1 => byteBit s.io.timsk 6
  | .ovf1 => byteBit s.io.timsk 7
  | .ovf0 => byteBit s.io.timsk 1
  | .urxc => false
  | .udre => false
  | .utxc => false
  | .aci => false

/-- `pending(n)` (R353). -/
def State.pending (s : State) (q : Irq) : Bool := s.request q && s.enabled q

/-- The lowest-numbered pending vector of a list whose head is vector `n` (R354). -/
def State.firstPending (s : State) (n : Nat) : List Irq → Option (Nat × Irq)
  | [] => none
  | q :: qs => if s.pending q then some (n, q) else State.firstPending s (n + 1) qs

/-- `deliverable`, with the vector to take (R353, R354). -/
def State.deliverable (s : State) : Option (Nat × Irq) :=
  if s.flag .i && !s.inhibit then s.firstPending 1 s.cfg.vectors else none

/-- "clear that flag", unless the source is in low-level mode or has no flag (R356). -/
def IoFile.clearRequest (io : IoFile) : Irq → IoFile
  | .int0 =>
    if senseControl io.mcucr 0 = 0 then io else { io with gifr := setByteBit io.gifr 6 false }
  | .int1 =>
    if senseControl io.mcucr 1 = 0 then io else { io with gifr := setByteBit io.gifr 7 false }
  | .icp1 => { io with tifr := setByteBit io.tifr 3 false }
  | .oc1 => { io with tifr := setByteBit io.tifr 6 false }
  | .ovf1 => { io with tifr := setByteBit io.tifr 7 false }
  | .ovf0 => { io with tifr := setByteBit io.tifr 1 false }
  | .urxc => io
  | .udre => io
  | .utxc => io
  | .aci => io

/-! ## The environment (R342) -/

/-- The drive of a pin replaced (R342, `EnvDrive`). -/
def PinDrive.setExt (p : PinDrive) (n : BitNo) (v : Option Bool) : PinDrive :=
  { p with driven := setByteBit p.driven n v.isSome, drive := setByteBit p.drive n (v.getD false) }

/-- The level a pin takes while it floats replaced (R342, `EnvFloat`). -/
def PinDrive.setFloat (p : PinDrive) (n : BitNo) (v : Bool) : PinDrive :=
  { p with float := setByteBit p.float n v }

/-- The outside of one port's pins changed. -/
def State.mapPins (s : State) (x : Port) (f : PinDrive → PinDrive) : State :=
  match x with
  | .b => { s with pinB := f s.pinB }
  | .d => { s with pinD := f s.pinD }

/-- A reset of the running chip: the reset state, with program memory, the pins' outside and the environment's
future kept, and `prev` the levels at that moment (70_reset_and_hazards.md R380, R381; entry 10). -/
def State.chipReset (s : State) : State :=
  let t := { State.resetOf s.cfg with flash := s.flash, pinB := s.pinB, pinD := s.pinD, inputs := s.inputs }
  { t with prev := t.watchedLevels }

/-- The effect of one event (R342, column "Effect"). Two points R342 leaves open are the model's, DESIGN CHOICE: a tick
it does not allow does nothing (entry 8), and `EnvFloat` of a pin that does not float now is kept until it does
(entry 33). -/
def State.event (s : State) : EnvEvent → State
  | .drive x n v => (s.mapPins x (·.setExt n v)).pinsChanged
  | .tick0 => if prescaled (clockSelect s.io.tccr0) then s.setIo s.io.count0 else s
  | .tick1 => if prescaled (clockSelect s.io.tccr1b) then s.setIo s.io.count1 else s
  | .flag .ocf1a => s.setIo { s.io with tifr := setByteBit s.io.tifr 6 true }
  | .flag .icf1 => s.setIo { s.io with tifr := setByteBit s.io.tifr 3 true }
  | .float x n v => (s.mapPins x (·.setFloat n v)).pinsChanged
  | .reset => s.chipReset

/-- Events in order. -/
def State.eventList (s : State) : List EnvEvent → State
  | [] => s
  | e :: es => State.eventList (s.event e) es

/-- "zero or more environment events" of one instruction boundary (R355): the next batch of `inputs`. -/
def State.takeInputs (s : State) : State :=
  match s.inputs with
  | [] => s
  | batch :: rest => State.eventList { s with inputs := rest } batch

end Sys2Proof.Machine
end

