-- ==== Sys2Proof/Machine/Ops.lean ====
section
/-! DEFINITION. The shared operations: the data space, the I/O space, the stack, program memory and fetch,
skips, taking an interrupt and returning from one (00_scope.md R9; 10_state.md R32, R33; 20_memory.md R62
to R66; 43_branch.md R294; 60_exceptions.md R355, R356). -/

namespace Sys2Proof.Machine

/-- The outcome of a meaning: its next state, or the fault it raises (00_scope.md R9, `raise`). -/
def outcome : Except Fault State → Host.Outcome State Fault Refusal
  | .ok s => .next s
  | .error f => .fault f

/-! ## Data space and I/O space (20_memory.md R62) -/

/-- `IoRead(A)` (00_scope.md R9; 60_exceptions.md R348, R349). -/
def State.ioRead (s : State) (a : IoAddr) : Except Fault Byte :=
  match s.ioRegAt a with
  | some r => .ok (s.ioRegRead r)
  | none => .error (.unmodelledIo a .read)

/-- `IoWrite(A, v)` (00_scope.md R9; 60_exceptions.md R348, R349). -/
def State.ioWrite (s : State) (a : IoAddr) (v : Byte) : Except Fault State :=
  match s.ioRegAt a with
  | some r =>
    match s.ioRegWrite v r with
    | some t => .ok t
    | none => .error (.unmodelledIo a .write)
  | none => .error (.unmodelledIo a .write)

/-- The I/O address of a data address in the I/O block (20_memory.md R61). -/
def ioAddrOf (a : Word) : IoAddr := BitVec.ofNat 6 (a.toNat - 0x20)

/-- The register a data address below $20 names (10_state.md R22). -/
def regOfAddr (a : Word) : Reg := Fin.ofNat 32 a.toNat

/-- The data address lies in the SRAM (20_memory.md R60). -/
def State.inSram (s : State) (a : Word) : Bool :=
  decide (s.cfg.sramStart.toNat ≤ a.toNat ∧ a.toNat ≤ s.cfg.ramend.toNat)

/-- What an SRAM byte holds; none for a byte nothing has written since reset (10_state.md R48). -/
def State.sramByte (s : State) (a : Nat) : Option Byte := Memory.read none s.sram a

/-- `MemRead(a, 1)` (20_memory.md R62). -/
def State.memRead (s : State) (a : Word) : Except Fault Byte :=
  if a.toNat ≤ 0x1F then .ok (s.reg (regOfAddr a))
  else if a.toNat ≤ 0x5F then s.ioRead (ioAddrOf a)
  else if s.inSram a then
    match s.sramByte a.toNat with
    | some v => .ok v
    | none => .error (.uninitialisedRead a)
  else .error (.dataAddressOutOfRange a)

/-- The SRAM with one byte written. -/
def State.setSram (s : State) (a : Word) (v : Byte) : State :=
  { s with sram := Memory.write none s.sram a.toNat v }

/-- `MemWrite(a, 1, v)` (20_memory.md R62). -/
def State.memWrite (s : State) (a : Word) (v : Byte) : Except Fault State :=
  if a.toNat ≤ 0x1F then .ok (s.setReg (regOfAddr a) v)
  else if a.toNat ≤ 0x5F then s.ioWrite (ioAddrOf a) v
  else if s.inSram a then .ok (s.setSram a v)
  else .error (.dataAddressOutOfRange a)

/-! ## The stack (10_state.md R32, R33) -/

/-- `Push8(v)` (R32). -/
def State.push8 (s : State) (v : Byte) : Except Fault State := do
  let t ← s.memWrite s.sp v
  pure (t.setSp (t.sp - 1))

/-- `Pop8()` (R32): the byte and the state with SP advanced. -/
def State.pop8 (s : State) : Except Fault (Byte × State) := do
  let t := s.setSp (s.sp + 1)
  let v ← t.memRead t.sp
  pure (v, t)

/-- `PushPC(w)`: the low byte first (R33). -/
def State.pushPc (s : State) (w : Word) : Except Fault State := do
  let t ← s.push8 (loByte w)
  t.push8 (hiByte w)

/-- `PopPC()`: the high byte first (R33); the address is taken modulo `2^PCW` where it enters the PC. -/
def State.popPc (s : State) : Except Fault (Word × State) := do
  let (h, t) ← s.pop8
  let (l, u) ← t.pop8
  pure (joinBytes h l, u)

/-! ## Program memory, fetch, skips (20_memory.md R66; 30_encoding.md R91, R116) -/

/-- What a program-memory byte nothing has loaded reads as: erased flash (20_memory.md R67). -/
def erasedByte : Byte := 0xFF

/-- A byte of program memory. -/
def State.flashByte (s : State) (b : Nat) : Byte :=
  match Memory.read (some erasedByte) s.flash b with
  | some v => v
  | none => erasedByte

/-- `ProgWord(w)` (00_scope.md R9): the low byte at the even byte address. -/
def State.progWord (s : State) (w : Nat) : Word :=
  wordOfBytes (s.flashByte (2 * w)) (s.flashByte (2 * w + 1))

/-- `ProgByte(b)`, a fault above FLASHEND (20_memory.md R66). -/
def State.progByte (s : State) (b : Word) : Except Fault Byte :=
  if b.toNat / 2 < s.cfg.flashWords then
    if b.toNat % 2 = 0 then .ok (loByte (s.progWord (b.toNat / 2)))
    else .ok (hiByte (s.progWord (b.toNat / 2)))
  else .error (.progAddressOutOfRange b.toNat)

/-- The program word at a PC value, a fault above FLASHEND (20_memory.md R66; 43_branch.md R259). -/
def State.fetchWord (s : State) (w : Word) : Except Fault Word :=
  if w.toNat < s.cfg.flashWords then .ok (s.progWord w.toNat)
  else .error (.progAddressOutOfRange (2 * w.toNat))

/-- The word after the one at `pc` where the instruction has two (R66), modulo `2^PCW` by R29: DEDUCED
(entry 23). -/
def State.secondWord (s : State) (w : Word) : Except Fault Word :=
  if wordLength s.cfg.profile w = 2 then s.fetchWord (s.pcPlus 1) else .ok 0

/-- The instruction of the words read at `a`, a fault for a reserved word (30_encoding.md R116). -/
def State.decodeAt (s : State) (a w w1 : Word) : Except Fault Instr :=
  match decode s.cfg.profile w w1 with
  | .ok i => .ok i
  | .error _ => .error (.reservedOpcode a w)

/-- The instruction at `pc` (R66). -/
def State.fetch (s : State) : Except Fault Instr := do
  let w ← s.fetchWord s.pc
  let w1 ← s.secondWord w
  s.decodeAt s.pc w w1

/-- `SkipLen(a)` (43_branch.md R294), a fault for a reserved word (30_encoding.md R116). Where `a` lies above
FLASHEND, of which no rule speaks, the skip faults ProgAddressOutOfRange: DESIGN CHOICE (entry 22). -/
def State.skipLen (s : State) (a : Word) : Except Fault Word := do
  let w ← s.fetchWord a
  let _ ← s.decodeAt a w 0
  pure (if wordLength s.cfg.profile w = 2 then 2 else 1)

/-- "if c then pc <- pc + 1 + SkipLen(pc + 1) else pc <- pc + 1" (43_branch.md R266, R270 to R273). -/
def State.skipIf (s : State) (c : Bool) : Except Fault State :=
  if c then do
    let m ← s.skipLen (s.pcPlus 1)
    pure (s.setPc (s.pc + 1 + m))
  else pure (s.advance 1)

/-- Program memory with one byte loaded (20_memory.md R67). -/
def State.setFlash (s : State) (b : Nat) (v : Byte) : State :=
  { s with flash := Memory.write (some erasedByte) s.flash b v }

/-- Program memory with one word loaded at a word address (20_memory.md R67, R68). -/
def State.storeProgWord (s : State) (w : Nat) (v : Word) : State :=
  (s.setFlash (2 * w) (loByte v)).setFlash (2 * w + 1) (hiByte v)

/-- A program image loaded: pairs of a word address and the word there (20_memory.md R67). -/
def State.loadProgram (s : State) : List (Nat × Word) → State
  | [] => s
  | (w, v) :: image => State.loadProgram (s.storeProgWord w v) image

/-! ## Interrupts (60_exceptions.md R356, R358) -/

/-- `TakeInterrupt(n)` of the source `q` at vector `n` (R356). -/
def State.takeInterrupt (s : State) (n : Nat) (q : Irq) : Except Fault State := do
  let t ← s.pushPc s.pc
  let u := (t.writeSreg (setFlag t.sreg .i false)).setIo (t.io.clearRequest q)
  let v := u.setPc (BitVec.ofNat 16 (n * u.cfg.vectorStride))
  pure { v with sleeping := false, inhibit := false }

/-- RETI's return: `pc <- PopPC(); SREG.I <- 1; inhibit <- true` (43_branch.md R265). -/
def State.returnFromInterrupt (s : State) : Except Fault State := do
  let (w, t) ← s.popPc
  pure { (t.setPc w).writeSreg (setFlag t.sreg .i true) with inhibit := true }

/-- RET's return: `pc <- PopPC()` (43_branch.md R264). -/
def State.returnFromCall (s : State) : Except Fault State := do
  let (w, t) ← s.popPc
  pure (t.setPc w)

/-! ## One step (60_exceptions.md R355) -/

/-- What the machine does at an instruction boundary once the environment has acted (R355). -/
inductive Action
  /-- Take the interrupt of this source at this vector. -/
  | interrupt (n : Nat) (q : Irq)
  /-- Stay asleep (R366). -/
  | sleep
  /-- Execute the instruction at `pc`. -/
  | execute
deriving DecidableEq, Repr

/-- The choice of R355: an interrupt if one is deliverable, else sleep if asleep, else an instruction. -/
def State.action (s : State) : Action :=
  match s.deliverable with
  | some (n, q) => .interrupt n q
  | none => if s.sleeping then .sleep else .execute

/-- `inhibit <- false`, before the instruction (R355). -/
def State.beginInstr (s : State) : State := { s with inhibit := false }

/-- The parameters under which a word is an instruction: `c`, or PMEGA's where only PMEGA has it (entry 12). -/
def configForWord (c : Config) (w w1 : Word) : Config :=
  match decode c.profile w w1, decode .pmega w w1 with
  | .error _, .ok _ => Config.pmega
  | _, _ => c

end Sys2Proof.Machine
end

