-- ==== Sys2Proof/Machine/ArithLogic.lean ====
section
/-! DEFINITION. The meanings of the arithmetic and logic instructions (42_arithmetic_logic.md R218 to R240). -/

namespace Sys2Proof.Machine

/-! ## Shared operations -/

/-- The carry flag as a byte, 0 or 1. -/
def carryByte (s : State) : Byte := if s.flag .c then 1 else 0

/-- A result written to Rd with SREG as the instruction leaves it; one word (R218). -/
def State.writeResult (s : State) (rd : Reg) (r sreg : Byte) : State :=
  ((s.setReg rd r).setFlags sreg).advance 1

/-- `Rd := Rd + b + c` with AddFlags (R220, R221). -/
def State.addWith (s : State) (rd : Reg) (b c : Byte) : State :=
  let a := s.reg rd
  let r := a + b + c
  s.writeResult rd r (addFlags s.sreg a b r)

/-- `Rd := Rd - b - c` with SubFlags (R223 to R226). -/
def State.subWith (s : State) (rd : Reg) (b c : Byte) (keepZ : Bool) : State :=
  let a := s.reg rd
  let r := a - b - c
  s.writeResult rd r (subFlags s.sreg a b r keepZ)

/-- `Rd := r` with LogicFlags (R228 to R232). -/
def State.logicResult (s : State) (rd : Reg) (r : Byte) : State :=
  s.writeResult rd r (logicFlags s.sreg r)

/-! ## Meanings -/

/-- `ADD Rd,Rr` (R220). -/
def execAdd (rd rr : Reg) (s : State) : Host.Outcome State Fault Refusal :=
  .next (s.addWith rd (s.reg rr) 0)

/-- `ADC Rd,Rr` (R221). -/
def execAdc (rd rr : Reg) (s : State) : Host.Outcome State Fault Refusal :=
  .next (s.addWith rd (s.reg rr) (carryByte s))

/-- `ADIW Rdl,K` (R222). -/
def execAdiw (rd : Reg) (k : BitVec 6) (s : State) : Host.Outcome State Fault Refusal :=
  let w := s.pair rd
  let r := w + k.setWidth 16
  .next (((s.setPair rd r).setFlags (adiwFlags s.sreg w r)).advance 1)

/-- `SUB Rd,Rr` (R223). -/
def execSub (rd rr : Reg) (s : State) : Host.Outcome State Fault Refusal :=
  .next (s.subWith rd (s.reg rr) 0 false)

/-- `SUBI Rd,K` (R224). -/
def execSubi (rd : Reg) (k : Byte) (s : State) : Host.Outcome State Fault Refusal :=
  .next (s.subWith rd k 0 false)

/-- `SBC Rd,Rr` (R225). -/
def execSbc (rd rr : Reg) (s : State) : Host.Outcome State Fault Refusal :=
  .next (s.subWith rd (s.reg rr) (carryByte s) true)

/-- `SBCI Rd,K` (R226). -/
def execSbci (rd : Reg) (k : Byte) (s : State) : Host.Outcome State Fault Refusal :=
  .next (s.subWith rd k (carryByte s) true)

/-- `SBIW Rdl,K` (R227). -/
def execSbiw (rd : Reg) (k : BitVec 6) (s : State) : Host.Outcome State Fault Refusal :=
  let w := s.pair rd
  let r := w - k.setWidth 16
  .next (((s.setPair rd r).setFlags (sbiwFlags s.sreg w r)).advance 1)

/-- `AND Rd,Rr` (R228). -/
def execAnd (rd rr : Reg) (s : State) : Host.Outcome State Fault Refusal :=
  .next (s.logicResult rd (s.reg rd &&& s.reg rr))

/-- `ANDI Rd,K` (R229). -/
def execAndi (rd : Reg) (k : Byte) (s : State) : Host.Outcome State Fault Refusal :=
  .next (s.logicResult rd (s.reg rd &&& k))

/-- `OR Rd,Rr` (R230). -/
def execOr (rd rr : Reg) (s : State) : Host.Outcome State Fault Refusal :=
  .next (s.logicResult rd (s.reg rd ||| s.reg rr))

/-- `ORI Rd,K` (R231). -/
def execOri (rd : Reg) (k : Byte) (s : State) : Host.Outcome State Fault Refusal :=
  .next (s.logicResult rd (s.reg rd ||| k))

/-- `EOR Rd,Rr` (R232). -/
def execEor (rd rr : Reg) (s : State) : Host.Outcome State Fault Refusal :=
  .next (s.logicResult rd (s.reg rd ^^^ s.reg rr))

/-- `COM Rd` (R233). -/
def execCom (rd : Reg) (s : State) : Host.Outcome State Fault Refusal :=
  let r := 0xFF - s.reg rd
  .next (s.writeResult rd r (comFlags s.sreg r))

/-- `NEG Rd` (R234). -/
def execNeg (rd : Reg) (s : State) : Host.Outcome State Fault Refusal :=
  let a := s.reg rd
  let r := 0 - a
  .next (s.writeResult rd r (negFlags s.sreg a r))

/-- `INC Rd` (R235). -/
def execInc (rd : Reg) (s : State) : Host.Outcome State Fault Refusal :=
  let r := s.reg rd + 1
  .next (s.writeResult rd r (stepFlags s.sreg r 0x80))

/-- `DEC Rd` (R236). -/
def execDec (rd : Reg) (s : State) : Host.Outcome State Fault Refusal :=
  let r := s.reg rd - 1
  .next (s.writeResult rd r (stepFlags s.sreg r 0x7F))

/-- `TST Rd`: Rd keeps its value (R237). -/
def execTst (rd : Reg) (s : State) : Host.Outcome State Fault Refusal :=
  .next ((s.setFlags (logicFlags s.sreg (s.reg rd))).advance 1)

/-- `CLR Rd` (R238). -/
def execClr (rd : Reg) (s : State) : Host.Outcome State Fault Refusal :=
  .next (s.writeResult rd 0 (clrFlags s.sreg))

/-- `SER Rd` (R239). -/
def execSer (rd : Reg) (s : State) : Host.Outcome State Fault Refusal :=
  .next ((s.setReg rd 0xFF).advance 1)

end Sys2Proof.Machine
end

