-- ==== Sys2Proof/Machine/BitOps.lean ====
section
/-! DEFINITION. The meanings of the bit and bit-test instructions (41_bit_and_bit_test.md R169 to R202;
60_exceptions.md R366, R367). -/

namespace Sys2Proof.Machine

/-! ## Shared operations -/

/-- A read and a write of a whole I/O register with bit `b` replaced (R170, R171). -/
def State.ioBitWrite (s : State) (a : IoAddr) (b : BitNo) (v : Bool) : Except Fault State := do
  let old ← s.ioRead a
  let t ← s.ioWrite a (setByteBit old b v)
  pure (t.advance 1)

/-- A shifted or masked value written to Rd with SREG as the instruction leaves it; one word (R169). -/
def State.bitResult (s : State) (rd : Reg) (r sreg : Byte) : State :=
  ((s.setReg rd r).setFlags sreg).advance 1

/-- `SREG[s] <- v; pc <- next` (R180, R181). -/
def State.sregBitWrite (s : State) (n : BitNo) (v : Bool) : State :=
  (s.writeSreg (setByteBit s.sreg n v)).advance 1

/-! ## I/O register bits and register masks -/

/-- `SBI P,b` (R170). -/
def execSbi (a : BitVec 5) (b : BitNo) (s : State) : Host.Outcome State Fault Refusal :=
  outcome (s.ioBitWrite (lowIoAddr a) b true)

/-- `CBI P,b` (R171). -/
def execCbi (a : BitVec 5) (b : BitNo) (s : State) : Host.Outcome State Fault Refusal :=
  outcome (s.ioBitWrite (lowIoAddr a) b false)

/-- `SBR Rd,K` (R172). -/
def execSbr (rd : Reg) (k : Byte) (s : State) : Host.Outcome State Fault Refusal :=
  let r := s.reg rd ||| k
  .next (s.bitResult rd r (logicFlags s.sreg r))

/-- `CBR Rd,K` (R173). -/
def execCbr (rd : Reg) (k : Byte) (s : State) : Host.Outcome State Fault Refusal :=
  let r := s.reg rd &&& ~~~k
  .next (s.bitResult rd r (logicFlags s.sreg r))

/-! ## Shifts and rotates -/

/-- `LSL Rd` (R174). -/
def execLsl (rd : Reg) (s : State) : Host.Outcome State Fault Refusal :=
  let v := s.reg rd
  let r := v <<< 1
  .next (s.bitResult rd r (shiftLeftFlags s.sreg v r))

/-- `LSR Rd` (R175). -/
def execLsr (rd : Reg) (s : State) : Host.Outcome State Fault Refusal :=
  let v := s.reg rd
  let r := v >>> 1
  .next (s.bitResult rd r (shiftFlags s.sreg (byteBit v 0) r))

/-- `ROL Rd` (R176). -/
def execRol (rd : Reg) (s : State) : Host.Outcome State Fault Refusal :=
  let v := s.reg rd
  let r := setByteBit (v <<< 1) 0 (s.flag .c)
  .next (s.bitResult rd r (shiftLeftFlags s.sreg v r))

/-- `ROR Rd` (R177). -/
def execRor (rd : Reg) (s : State) : Host.Outcome State Fault Refusal :=
  let v := s.reg rd
  let r := setByteBit (v >>> 1) 7 (s.flag .c)
  .next (s.bitResult rd r (shiftFlags s.sreg (byteBit v 0) r))

/-- `ASR Rd` (R178). -/
def execAsr (rd : Reg) (s : State) : Host.Outcome State Fault Refusal :=
  let v := s.reg rd
  let r := setByteBit (v >>> 1) 7 (byteBit v 7)
  .next (s.bitResult rd r (shiftFlags s.sreg (byteBit v 0) r))

/-- `SWAP Rd` (R179). -/
def execSwap (rd : Reg) (s : State) : Host.Outcome State Fault Refusal :=
  let v := s.reg rd
  .next ((s.setReg rd ((v <<< 4) ||| (v >>> 4))).advance 1)

/-! ## SREG bits -/

/-- `BSET s` (R180). -/
def execBset (n : BitNo) (s : State) : Host.Outcome State Fault Refusal := .next (s.sregBitWrite n true)

/-- `BCLR s` (R181). -/
def execBclr (n : BitNo) (s : State) : Host.Outcome State Fault Refusal := .next (s.sregBitWrite n false)

/-- `BST Rr,b` (R182). -/
def execBst (rr : Reg) (b : BitNo) (s : State) : Host.Outcome State Fault Refusal :=
  .next ((s.setFlags (setFlag s.sreg .t (byteBit (s.reg rr) b))).advance 1)

/-- `BLD Rd,b` (R183). -/
def execBld (rd : Reg) (b : BitNo) (s : State) : Host.Outcome State Fault Refusal :=
  .next ((s.setReg rd (setByteBit (s.reg rd) b (s.flag .t))).advance 1)

/-- `SEC` (R184). -/
def execSec (s : State) : Host.Outcome State Fault Refusal := .next (s.sregBitWrite Flag.c.bit true)

/-- `CLC` (R185). -/
def execClc (s : State) : Host.Outcome State Fault Refusal := .next (s.sregBitWrite Flag.c.bit false)

/-- `SEN` (R186). -/
def execSen (s : State) : Host.Outcome State Fault Refusal := .next (s.sregBitWrite Flag.n.bit true)

/-- `CLN` (R187). -/
def execCln (s : State) : Host.Outcome State Fault Refusal := .next (s.sregBitWrite Flag.n.bit false)

/-- `SEZ` (R188). -/
def execSez (s : State) : Host.Outcome State Fault Refusal := .next (s.sregBitWrite Flag.z.bit true)

/-- `CLZ` (R189). -/
def execClz (s : State) : Host.Outcome State Fault Refusal := .next (s.sregBitWrite Flag.z.bit false)

/-- `SEI` (R190). -/
def execSei (s : State) : Host.Outcome State Fault Refusal := .next (s.sregBitWrite Flag.i.bit true)

/-- `CLI` (R191). -/
def execCli (s : State) : Host.Outcome State Fault Refusal := .next (s.sregBitWrite Flag.i.bit false)

/-- `SES` (R192). -/
def execSes (s : State) : Host.Outcome State Fault Refusal := .next (s.sregBitWrite Flag.s.bit true)

/-- `CLS` (R193). -/
def execCls (s : State) : Host.Outcome State Fault Refusal := .next (s.sregBitWrite Flag.s.bit false)

/-- `SEV` (R194). -/
def execSev (s : State) : Host.Outcome State Fault Refusal := .next (s.sregBitWrite Flag.v.bit true)

/-- `CLV` (R195). -/
def execClv (s : State) : Host.Outcome State Fault Refusal := .next (s.sregBitWrite Flag.v.bit false)

/-- `SET` (R196). -/
def execSet (s : State) : Host.Outcome State Fault Refusal := .next (s.sregBitWrite Flag.t.bit true)

/-- `CLT` (R197). -/
def execClt (s : State) : Host.Outcome State Fault Refusal := .next (s.sregBitWrite Flag.t.bit false)

/-- `SEH` (R198). -/
def execSeh (s : State) : Host.Outcome State Fault Refusal := .next (s.sregBitWrite Flag.h.bit true)

/-- `CLH` (R199). -/
def execClh (s : State) : Host.Outcome State Fault Refusal := .next (s.sregBitWrite Flag.h.bit false)

/-! ## No-operand control -/

/-- `NOP` (R200). -/
def execNop (s : State) : Host.Outcome State Fault Refusal := .next (s.advance 1)

/-- `SLEEP`: asleep if MCUCR.SE, bit 5, is 1 (R201; 60_exceptions.md R366). -/
def execSleep (s : State) : Host.Outcome State Fault Refusal :=
  .next { s.advance 1 with sleeping := s.sleeping || byteBit s.io.mcucr 5 }

/-- `WDR`: no watchdog is modelled (R202; 60_exceptions.md R367; entry 18). -/
def execWdr (s : State) : Host.Outcome State Fault Refusal := .next (s.advance 1)

end Sys2Proof.Machine
end

