-- ==== Sys2Proof/Machine/Branch.lean ====
section
/-! DEFINITION. The meanings of the branch instructions (43_branch.md R259 to R295). -/

namespace Sys2Proof.Machine

/-! ## Shared operations -/

/-- `pc + 1 + k`, `k` a sign-extended word offset (30_encoding.md R108; 10_state.md R29). -/
def State.relTarget (s : State) (k : Word) : Word := s.pc + 1 + k

/-- "if c then pc <- pc + 1 + sext_7(k) else pc <- pc + 1" (R274, R275). -/
def State.branchIf (s : State) (c : Bool) (k : BitVec 7) : State :=
  if c then s.setPc (s.relTarget (k.signExtend 16)) else s.advance 1

/-- The flags of a comparison `a - b - c`; no register is written (R267 to R269). -/
def State.compare (s : State) (a b c : Byte) (keepZ : Bool) : State :=
  (s.setFlags (subFlags s.sreg a b (a - b - c) keepZ)).advance 1

/-- The carry flag subtracted by CPC, 0 or 1 (R268). -/
def borrowByte (s : State) : Byte := if s.flag .c then 1 else 0

/-! ## Jumps, calls, returns -/

/-- `RJMP k` (R260). -/
def execRjmp (k : BitVec 12) (s : State) : Host.Outcome State Fault Refusal :=
  .next (s.setPc (s.relTarget (k.signExtend 16)))

/-- `IJMP` (R261). -/
def execIjmp (s : State) : Host.Outcome State Fault Refusal := .next (s.setPc (s.ptr .z))

/-- `RCALL k` (R262). -/
def execRcall (k : BitVec 12) (s : State) : Host.Outcome State Fault Refusal :=
  outcome do
    let t ← s.pushPc (s.pcPlus 1)
    pure (t.setPc (s.relTarget (k.signExtend 16)))

/-- `ICALL`: Z is read after the push (R263, entry 24). -/
def execIcall (s : State) : Host.Outcome State Fault Refusal :=
  outcome do
    let t ← s.pushPc (s.pcPlus 1)
    pure (t.setPc (t.ptr .z))

/-- `RET` (R264). -/
def execRet (s : State) : Host.Outcome State Fault Refusal := outcome s.returnFromCall

/-- `RETI` (R265). -/
def execReti (s : State) : Host.Outcome State Fault Refusal := outcome s.returnFromInterrupt

/-! ## Compare and skip -/

/-- `CPSE Rd,Rr` (R266). -/
def execCpse (rd rr : Reg) (s : State) : Host.Outcome State Fault Refusal :=
  outcome (s.skipIf (s.reg rd == s.reg rr))

/-- `CP Rd,Rr` (R267). -/
def execCp (rd rr : Reg) (s : State) : Host.Outcome State Fault Refusal :=
  .next (s.compare (s.reg rd) (s.reg rr) 0 false)

/-- `CPC Rd,Rr` (R268). -/
def execCpc (rd rr : Reg) (s : State) : Host.Outcome State Fault Refusal :=
  .next (s.compare (s.reg rd) (s.reg rr) (borrowByte s) true)

/-- `CPI Rd,K` (R269). -/
def execCpi (rd : Reg) (k : Byte) (s : State) : Host.Outcome State Fault Refusal :=
  .next (s.compare (s.reg rd) k 0 false)

/-- `SBRC Rr,b` (R270). -/
def execSbrc (rr : Reg) (b : BitNo) (s : State) : Host.Outcome State Fault Refusal :=
  outcome (s.skipIf (!byteBit (s.reg rr) b))

/-- `SBRS Rr,b` (R271). -/
def execSbrs (rr : Reg) (b : BitNo) (s : State) : Host.Outcome State Fault Refusal :=
  outcome (s.skipIf (byteBit (s.reg rr) b))

/-- `SBIC P,b` (R272). -/
def execSbic (a : BitVec 5) (b : BitNo) (s : State) : Host.Outcome State Fault Refusal :=
  outcome do
    let v ← s.ioRead (lowIoAddr a)
    s.skipIf (!byteBit v b)

/-- `SBIS P,b` (R273). -/
def execSbis (a : BitVec 5) (b : BitNo) (s : State) : Host.Outcome State Fault Refusal :=
  outcome do
    let v ← s.ioRead (lowIoAddr a)
    s.skipIf (byteBit v b)

/-! ## Conditional branches -/

/-- `BRBS s,k` (R274). -/
def execBrbs (n : BitNo) (k : BitVec 7) (s : State) : Host.Outcome State Fault Refusal :=
  .next (s.branchIf (byteBit s.sreg n) k)

/-- `BRBC s,k` (R275). -/
def execBrbc (n : BitNo) (k : BitVec 7) (s : State) : Host.Outcome State Fault Refusal :=
  .next (s.branchIf (!byteBit s.sreg n) k)

/-- `BREQ k` (R276). -/
def execBreq (k : BitVec 7) (s : State) : Host.Outcome State Fault Refusal :=
  .next (s.branchIf (s.flag .z) k)

/-- `BRNE k` (R277). -/
def execBrne (k : BitVec 7) (s : State) : Host.Outcome State Fault Refusal :=
  .next (s.branchIf (!s.flag .z) k)

/-- `BRCS k` (R278). -/
def execBrcs (k : BitVec 7) (s : State) : Host.Outcome State Fault Refusal :=
  .next (s.branchIf (s.flag .c) k)

/-- `BRCC k` (R279). -/
def execBrcc (k : BitVec 7) (s : State) : Host.Outcome State Fault Refusal :=
  .next (s.branchIf (!s.flag .c) k)

/-- `BRSH k` (R280). -/
def execBrsh (k : BitVec 7) (s : State) : Host.Outcome State Fault Refusal :=
  .next (s.branchIf (!s.flag .c) k)

/-- `BRLO k` (R281). -/
def execBrlo (k : BitVec 7) (s : State) : Host.Outcome State Fault Refusal :=
  .next (s.branchIf (s.flag .c) k)

/-- `BRMI k` (R282). -/
def execBrmi (k : BitVec 7) (s : State) : Host.Outcome State Fault Refusal :=
  .next (s.branchIf (s.flag .n) k)

/-- `BRPL k` (R283). -/
def execBrpl (k : BitVec 7) (s : State) : Host.Outcome State Fault Refusal :=
  .next (s.branchIf (!s.flag .n) k)

/-- `BRGE k` (R284). -/
def execBrge (k : BitVec 7) (s : State) : Host.Outcome State Fault Refusal :=
  .next (s.branchIf (!s.flag .s) k)

/-- `BRLT k` (R285). -/
def execBrlt (k : BitVec 7) (s : State) : Host.Outcome State Fault Refusal :=
  .next (s.branchIf (s.flag .s) k)

/-- `BRHS k` (R286). -/
def execBrhs (k : BitVec 7) (s : State) : Host.Outcome State Fault Refusal :=
  .next (s.branchIf (s.flag .h) k)

/-- `BRHC k` (R287). -/
def execBrhc (k : BitVec 7) (s : State) : Host.Outcome State Fault Refusal :=
  .next (s.branchIf (!s.flag .h) k)

/-- `BRTS k` (R288). -/
def execBrts (k : BitVec 7) (s : State) : Host.Outcome State Fault Refusal :=
  .next (s.branchIf (s.flag .t) k)

/-- `BRTC k` (R289). -/
def execBrtc (k : BitVec 7) (s : State) : Host.Outcome State Fault Refusal :=
  .next (s.branchIf (!s.flag .t) k)

/-- `BRVS k` (R290). -/
def execBrvs (k : BitVec 7) (s : State) : Host.Outcome State Fault Refusal :=
  .next (s.branchIf (s.flag .v) k)

/-- `BRVC k` (R291). -/
def execBrvc (k : BitVec 7) (s : State) : Host.Outcome State Fault Refusal :=
  .next (s.branchIf (!s.flag .v) k)

/-- `BRIE k` (R292). -/
def execBrie (k : BitVec 7) (s : State) : Host.Outcome State Fault Refusal :=
  .next (s.branchIf (s.flag .i) k)

/-- `BRID k` (R293). -/
def execBrid (k : BitVec 7) (s : State) : Host.Outcome State Fault Refusal :=
  .next (s.branchIf (!s.flag .i) k)

end Sys2Proof.Machine
end

