-- ==== Sys2Proof/Machine/DataTransfer.lean ====
section
/-! DEFINITION. The meanings of the data transfer instructions (40_data_transfer.md R129 to R161). -/

namespace Sys2Proof.Machine

/-! ## Shared operations -/

/-- A load through a pointer (R132 to R137, R139 to R141). A modifying load whose data register is one of the
pointer's is undefined (R160 (a)). The pointer is decremented before the access, incremented after it. -/
def State.loadIndirect (s : State) (p : Ptr) (m : PtrMode) (rd : Reg) : Except Fault State :=
  if m.modifies && p.holds rd then .error (.undefinedOperandCombination s.pc)
  else
    let a := s.effAddr p m
    match m with
    | .plain => do
      let v ← s.memRead a
      pure ((s.setReg rd v).advance 1)
    | .postInc => do
      let v ← s.memRead a
      pure (((s.setReg rd v).setPtr p (a + 1)).advance 1)
    | .preDec => do
      let t := s.setPtr p a
      let v ← t.memRead a
      pure ((t.setReg rd v).advance 1)

/-- A store through a pointer (R144 to R149, R151 to R153). A modifying store whose data register is one of the
pointer's, or whose effective address is the data address of one, is undefined (R160). -/
def State.storeIndirect (s : State) (p : Ptr) (m : PtrMode) (rr : Reg) : Except Fault State :=
  let a := s.effAddr p m
  if m.modifies && (p.holds rr || p.holdsAddr a) then .error (.undefinedOperandCombination s.pc)
  else
    match m with
    | .plain => do
      let t ← s.memWrite a (s.reg rr)
      pure (t.advance 1)
    | .postInc => do
      let t ← s.memWrite a (s.reg rr)
      pure ((t.setPtr p (a + 1)).advance 1)
    | .preDec => do
      let t := s.setPtr p a
      let u ← t.memWrite a (t.reg rr)
      pure (u.advance 1)

/-- A load from a given data address by an instruction of `n` words (R138, R142, R143). -/
def State.loadFrom (s : State) (a : Word) (rd : Reg) (n : Word) : Except Fault State := do
  let v ← s.memRead a
  pure ((s.setReg rd v).advance n)

/-- A store to a given data address by an instruction of `n` words (R150, R154, R155). -/
def State.storeTo (s : State) (a : Word) (rr : Reg) (n : Word) : Except Fault State := do
  let t ← s.memWrite a (s.reg rr)
  pure (t.advance n)

/-! ## Meanings -/

/-- `MOV Rd,Rr` (R130). -/
def execMov (rd rr : Reg) (s : State) : Host.Outcome State Fault Refusal :=
  .next ((s.setReg rd (s.reg rr)).advance 1)

/-- `LDI Rd,K` (R131). -/
def execLdi (rd : Reg) (k : Byte) (s : State) : Host.Outcome State Fault Refusal :=
  .next ((s.setReg rd k).advance 1)

/-- `LD Rd,X` (R132). -/
def execLdX (rd : Reg) (s : State) : Host.Outcome State Fault Refusal :=
  outcome (s.loadIndirect .x .plain rd)

/-- `LD Rd,X+` (R133). -/
def execLdXInc (rd : Reg) (s : State) : Host.Outcome State Fault Refusal :=
  outcome (s.loadIndirect .x .postInc rd)

/-- `LD Rd,-X` (R134). -/
def execLdXDec (rd : Reg) (s : State) : Host.Outcome State Fault Refusal :=
  outcome (s.loadIndirect .x .preDec rd)

/-- `LD Rd,Y` (R135). -/
def execLdY (rd : Reg) (s : State) : Host.Outcome State Fault Refusal :=
  outcome (s.loadIndirect .y .plain rd)

/-- `LD Rd,Y+` (R136). -/
def execLdYInc (rd : Reg) (s : State) : Host.Outcome State Fault Refusal :=
  outcome (s.loadIndirect .y .postInc rd)

/-- `LD Rd,-Y` (R137). -/
def execLdYDec (rd : Reg) (s : State) : Host.Outcome State Fault Refusal :=
  outcome (s.loadIndirect .y .preDec rd)

/-- `LDD Rd,Y+q` (R138). -/
def execLddY (rd : Reg) (q : BitVec 6) (s : State) : Host.Outcome State Fault Refusal :=
  outcome (s.loadFrom (s.dispAddr .y q) rd 1)

/-- `LD Rd,Z` (R139). -/
def execLdZ (rd : Reg) (s : State) : Host.Outcome State Fault Refusal :=
  outcome (s.loadIndirect .z .plain rd)

/-- `LD Rd,Z+` (R140). -/
def execLdZInc (rd : Reg) (s : State) : Host.Outcome State Fault Refusal :=
  outcome (s.loadIndirect .z .postInc rd)

/-- `LD Rd,-Z` (R141). -/
def execLdZDec (rd : Reg) (s : State) : Host.Outcome State Fault Refusal :=
  outcome (s.loadIndirect .z .preDec rd)

/-- `LDD Rd,Z+q` (R142). -/
def execLddZ (rd : Reg) (q : BitVec 6) (s : State) : Host.Outcome State Fault Refusal :=
  outcome (s.loadFrom (s.dispAddr .z q) rd 1)

/-- `LDS Rd,k` (R143). -/
def execLds (rd : Reg) (k : Word) (s : State) : Host.Outcome State Fault Refusal :=
  outcome (s.loadFrom k rd 2)

/-- `ST X,Rr` (R144). -/
def execStX (rr : Reg) (s : State) : Host.Outcome State Fault Refusal :=
  outcome (s.storeIndirect .x .plain rr)

/-- `ST X+,Rr` (R145). -/
def execStXInc (rr : Reg) (s : State) : Host.Outcome State Fault Refusal :=
  outcome (s.storeIndirect .x .postInc rr)

/-- `ST -X,Rr` (R146). -/
def execStXDec (rr : Reg) (s : State) : Host.Outcome State Fault Refusal :=
  outcome (s.storeIndirect .x .preDec rr)

/-- `ST Y,Rr` (R147). -/
def execStY (rr : Reg) (s : State) : Host.Outcome State Fault Refusal :=
  outcome (s.storeIndirect .y .plain rr)

/-- `ST Y+,Rr` (R148). -/
def execStYInc (rr : Reg) (s : State) : Host.Outcome State Fault Refusal :=
  outcome (s.storeIndirect .y .postInc rr)

/-- `ST -Y,Rr` (R149). -/
def execStYDec (rr : Reg) (s : State) : Host.Outcome State Fault Refusal :=
  outcome (s.storeIndirect .y .preDec rr)

/-- `STD Y+q,Rr` (R150). -/
def execStdY (q : BitVec 6) (rr : Reg) (s : State) : Host.Outcome State Fault Refusal :=
  outcome (s.storeTo (s.dispAddr .y q) rr 1)

/-- `ST Z,Rr` (R151). -/
def execStZ (rr : Reg) (s : State) : Host.Outcome State Fault Refusal :=
  outcome (s.storeIndirect .z .plain rr)

/-- `ST Z+,Rr` (R152). -/
def execStZInc (rr : Reg) (s : State) : Host.Outcome State Fault Refusal :=
  outcome (s.storeIndirect .z .postInc rr)

/-- `ST -Z,Rr` (R153). -/
def execStZDec (rr : Reg) (s : State) : Host.Outcome State Fault Refusal :=
  outcome (s.storeIndirect .z .preDec rr)

/-- `STD Z+q,Rr` (R154). -/
def execStdZ (q : BitVec 6) (rr : Reg) (s : State) : Host.Outcome State Fault Refusal :=
  outcome (s.storeTo (s.dispAddr .z q) rr 1)

/-- `STS k,Rr` (R155). -/
def execSts (k : Word) (rr : Reg) (s : State) : Host.Outcome State Fault Refusal :=
  outcome (s.storeTo k rr 2)

/-- `LPM`: a byte of program memory to R0 (R156). -/
def execLpm (s : State) : Host.Outcome State Fault Refusal :=
  outcome do
    let v ← s.progByte (s.ptr .z)
    pure ((s.setReg 0 v).advance 1)

/-- `IN Rd,P` (R157). -/
def execIn (rd : Reg) (a : IoAddr) (s : State) : Host.Outcome State Fault Refusal :=
  outcome do
    let v ← s.ioRead a
    pure ((s.setReg rd v).advance 1)

/-- `OUT P,Rr` (R158). -/
def execOut (a : IoAddr) (rr : Reg) (s : State) : Host.Outcome State Fault Refusal :=
  outcome do
    let t ← s.ioWrite a (s.reg rr)
    pure (t.advance 1)

/-- `PUSH Rr` (R159). -/
def execPush (rr : Reg) (s : State) : Host.Outcome State Fault Refusal :=
  outcome do
    let t ← s.push8 (s.reg rr)
    pure (t.advance 1)

/-- `POP Rd` (R161). -/
def execPop (rd : Reg) (s : State) : Host.Outcome State Fault Refusal :=
  outcome do
    let (v, t) ← s.pop8
    pure ((t.setReg rd v).advance 1)

end Sys2Proof.Machine
end

