-- ==== Sys2Proof/Machine/Mega.lean ====
section
/-! DEFINITION. The meanings of the instructions of profile PMEGA (44_mega_extension.md R309 to R325). On P2313
the decoder rejects their words (30_encoding.md R114); a meaning itself does not look at the profile (entry 29). -/

namespace Sys2Proof.Machine

/-! ## Shared operations -/

/-- R1:R0 and the flags of a multiply: `p` is the product, `r` the word written (R316 to R321). -/
def State.product (s : State) (p r : Word) : State :=
  ((s.setPair 0 r).setFlags (mulFlags s.sreg p r)).advance 1

/-! ## Meanings -/

/-- `MOVW Rd,Rr`: both bytes are read before either is written (R310). -/
def execMovw (rd rr : Reg) (s : State) : Host.Outcome State Fault Refusal :=
  .next ((s.setPair rd (s.pair rr)).advance 1)

/-- `LPM Rd,Z` (R311). -/
def execLpmZ (rd : Reg) (s : State) : Host.Outcome State Fault Refusal :=
  outcome do
    let v ← s.progByte (s.ptr .z)
    pure ((s.setReg rd v).advance 1)

/-- `LPM Rd,Z+`: undefined with Rd half of Z (R312; 40_data_transfer.md R160). -/
def execLpmZInc (rd : Reg) (s : State) : Host.Outcome State Fault Refusal :=
  if Ptr.z.holds rd then .fault (.undefinedOperandCombination s.pc)
  else outcome do
    let v ← s.progByte (s.ptr .z)
    pure (((s.setReg rd v).setPtr .z (s.ptr .z + 1)).advance 1)

/-- `SPM`: refused, its operation depends on a register no source describes (R314). -/
def execSpm (_ : State) : Host.Outcome State Fault Refusal := .fault (.unmodelledInstruction "SPM")

/-- `BREAK`: refused, for the on-chip debug unit only (R315). -/
def execBreak (_ : State) : Host.Outcome State Fault Refusal := .fault (.unmodelledInstruction "BREAK")

/-- `MUL Rd,Rr`, unsigned (R316). -/
def execMul (rd rr : Reg) (s : State) : Host.Outcome State Fault Refusal :=
  let p := (s.reg rd).setWidth 16 * (s.reg rr).setWidth 16
  .next (s.product p p)

/-- `MULS Rd,Rr`, signed (R317). -/
def execMuls (rd rr : Reg) (s : State) : Host.Outcome State Fault Refusal :=
  let p := (s.reg rd).signExtend 16 * (s.reg rr).signExtend 16
  .next (s.product p p)

/-- `MULSU Rd,Rr`, Rd signed, Rr unsigned (R318). -/
def execMulsu (rd rr : Reg) (s : State) : Host.Outcome State Fault Refusal :=
  let p := (s.reg rd).signExtend 16 * (s.reg rr).setWidth 16
  .next (s.product p p)

/-- `FMUL Rd,Rr` (R319). -/
def execFmul (rd rr : Reg) (s : State) : Host.Outcome State Fault Refusal :=
  let p := (s.reg rd).setWidth 16 * (s.reg rr).setWidth 16
  .next (s.product p (p <<< 1))

/-- `FMULS Rd,Rr` (R320). -/
def execFmuls (rd rr : Reg) (s : State) : Host.Outcome State Fault Refusal :=
  let p := (s.reg rd).signExtend 16 * (s.reg rr).signExtend 16
  .next (s.product p (p <<< 1))

/-- `FMULSU Rd,Rr`, Rd signed, Rr unsigned (R321). -/
def execFmulsu (rd rr : Reg) (s : State) : Host.Outcome State Fault Refusal :=
  let p := (s.reg rd).signExtend 16 * (s.reg rr).setWidth 16
  .next (s.product p (p <<< 1))

/-- `JMP k`: the 22-bit address modulo `2^PCW`, PCW at most 16 (R322, entry 5). -/
def execJmp (k : BitVec 22) (s : State) : Host.Outcome State Fault Refusal :=
  .next (s.setPc (k.setWidth 16))

/-- `CALL k` (R323). -/
def execCall (k : BitVec 22) (s : State) : Host.Outcome State Fault Refusal :=
  outcome do
    let t ← s.pushPc (s.pcPlus 2)
    pure (t.setPc (k.setWidth 16))

end Sys2Proof.Machine
end

