-- ==== Sys2Proof/Machine/Dispatch.lean ====
section
/-! DEFINITION. The meaning of each instruction: one arm per constructor, each one call. -/

namespace Sys2Proof.Machine

def exec (i : Instr) (s : State) : Host.Outcome State Fault Refusal :=
  match i with
  -- Data transfer (40_data_transfer.md)
  | .mov rd rr => Sys2Proof.Machine.execMov rd rr s
  | .ldi rd k => Sys2Proof.Machine.execLdi rd k s
  | .ldX rd => Sys2Proof.Machine.execLdX rd s
  | .ldXInc rd => Sys2Proof.Machine.execLdXInc rd s
  | .ldXDec rd => Sys2Proof.Machine.execLdXDec rd s
  | .ldY rd => Sys2Proof.Machine.execLdY rd s
  | .ldYInc rd => Sys2Proof.Machine.execLdYInc rd s
  | .ldYDec rd => Sys2Proof.Machine.execLdYDec rd s
  | .lddY rd q => Sys2Proof.Machine.execLddY rd q s
  | .ldZ rd => Sys2Proof.Machine.execLdZ rd s
  | .ldZInc rd => Sys2Proof.Machine.execLdZInc rd s
  | .ldZDec rd => Sys2Proof.Machine.execLdZDec rd s
  | .lddZ rd q => Sys2Proof.Machine.execLddZ rd q s
  | .lds rd k => Sys2Proof.Machine.execLds rd k s
  | .stX rr => Sys2Proof.Machine.execStX rr s
  | .stXInc rr => Sys2Proof.Machine.execStXInc rr s
  | .stXDec rr => Sys2Proof.Machine.execStXDec rr s
  | .stY rr => Sys2Proof.Machine.execStY rr s
  | .stYInc rr => Sys2Proof.Machine.execStYInc rr s
  | .stYDec rr => Sys2Proof.Machine.execStYDec rr s
  | .stdY q rr => Sys2Proof.Machine.execStdY q rr s
  | .stZ rr => Sys2Proof.Machine.execStZ rr s
  | .stZInc rr => Sys2Proof.Machine.execStZInc rr s
  | .stZDec rr => Sys2Proof.Machine.execStZDec rr s
  | .stdZ q rr => Sys2Proof.Machine.execStdZ q rr s
  | .sts k rr => Sys2Proof.Machine.execSts k rr s
  | .lpm => Sys2Proof.Machine.execLpm s
  | .inPort rd a => Sys2Proof.Machine.execIn rd a s
  | .outPort a rr => Sys2Proof.Machine.execOut a rr s
  | .push rr => Sys2Proof.Machine.execPush rr s
  | .pop rd => Sys2Proof.Machine.execPop rd s
  -- Bit and bit-test (41_bit_and_bit_test.md)
  | .sbi a b => Sys2Proof.Machine.execSbi a b s
  | .cbi a b => Sys2Proof.Machine.execCbi a b s
  | .sbr rd k => Sys2Proof.Machine.execSbr rd k s
  | .cbr rd k => Sys2Proof.Machine.execCbr rd k s
  | .lsl rd => Sys2Proof.Machine.execLsl rd s
  | .lsr rd => Sys2Proof.Machine.execLsr rd s
  | .rol rd => Sys2Proof.Machine.execRol rd s
  | .ror rd => Sys2Proof.Machine.execRor rd s
  | .asr rd => Sys2Proof.Machine.execAsr rd s
  | .swap rd => Sys2Proof.Machine.execSwap rd s
  | .bset n => Sys2Proof.Machine.execBset n s
  | .bclr n => Sys2Proof.Machine.execBclr n s
  | .bst rr b => Sys2Proof.Machine.execBst rr b s
  | .bld rd b => Sys2Proof.Machine.execBld rd b s
  | .sec => Sys2Proof.Machine.execSec s
  | .clc => Sys2Proof.Machine.execClc s
  | .sen => Sys2Proof.Machine.execSen s
  | .cln => Sys2Proof.Machine.execCln s
  | .sez => Sys2Proof.Machine.execSez s
  | .clz => Sys2Proof.Machine.execClz s
  | .sei => Sys2Proof.Machine.execSei s
  | .cli => Sys2Proof.Machine.execCli s
  | .ses => Sys2Proof.Machine.execSes s
  | .cls => Sys2Proof.Machine.execCls s
  | .sev => Sys2Proof.Machine.execSev s
  | .clv => Sys2Proof.Machine.execClv s
  | .setT => Sys2Proof.Machine.execSet s
  | .clt => Sys2Proof.Machine.execClt s
  | .seh => Sys2Proof.Machine.execSeh s
  | .clh => Sys2Proof.Machine.execClh s
  | .nop => Sys2Proof.Machine.execNop s
  | .sleep => Sys2Proof.Machine.execSleep s
  | .wdr => Sys2Proof.Machine.execWdr s
  -- Arithmetic and logic (42_arithmetic_logic.md)
  | .add rd rr => Sys2Proof.Machine.execAdd rd rr s
  | .adc rd rr => Sys2Proof.Machine.execAdc rd rr s
  | .adiw rd k => Sys2Proof.Machine.execAdiw rd k s
  | .sub rd rr => Sys2Proof.Machine.execSub rd rr s
  | .subi rd k => Sys2Proof.Machine.execSubi rd k s
  | .sbc rd rr => Sys2Proof.Machine.execSbc rd rr s
  | .sbci rd k => Sys2Proof.Machine.execSbci rd k s
  | .sbiw rd k => Sys2Proof.Machine.execSbiw rd k s
  | .and rd rr => Sys2Proof.Machine.execAnd rd rr s
  | .andi rd k => Sys2Proof.Machine.execAndi rd k s
  | .or rd rr => Sys2Proof.Machine.execOr rd rr s
  | .ori rd k => Sys2Proof.Machine.execOri rd k s
  | .eor rd rr => Sys2Proof.Machine.execEor rd rr s
  | .com rd => Sys2Proof.Machine.execCom rd s
  | .neg rd => Sys2Proof.Machine.execNeg rd s
  | .inc rd => Sys2Proof.Machine.execInc rd s
  | .dec rd => Sys2Proof.Machine.execDec rd s
  | .tst rd => Sys2Proof.Machine.execTst rd s
  | .clr rd => Sys2Proof.Machine.execClr rd s
  | .ser rd => Sys2Proof.Machine.execSer rd s
  -- Branch (43_branch.md)
  | .rjmp k => Sys2Proof.Machine.execRjmp k s
  | .ijmp => Sys2Proof.Machine.execIjmp s
  | .rcall k => Sys2Proof.Machine.execRcall k s
  | .icall => Sys2Proof.Machine.execIcall s
  | .ret => Sys2Proof.Machine.execRet s
  | .reti => Sys2Proof.Machine.execReti s
  | .cpse rd rr => Sys2Proof.Machine.execCpse rd rr s
  | .cp rd rr => Sys2Proof.Machine.execCp rd rr s
  | .cpc rd rr => Sys2Proof.Machine.execCpc rd rr s
  | .cpi rd k => Sys2Proof.Machine.execCpi rd k s
  | .sbrc rr b => Sys2Proof.Machine.execSbrc rr b s
  | .sbrs rr b => Sys2Proof.Machine.execSbrs rr b s
  | .sbic a b => Sys2Proof.Machine.execSbic a b s
  | .sbis a b => Sys2Proof.Machine.execSbis a b s
  | .brbs n k => Sys2Proof.Machine.execBrbs n k s
  | .brbc n k => Sys2Proof.Machine.execBrbc n k s
  | .breq k => Sys2Proof.Machine.execBreq k s
  | .brne k => Sys2Proof.Machine.execBrne k s
  | .brcs k => Sys2Proof.Machine.execBrcs k s
  | .brcc k => Sys2Proof.Machine.execBrcc k s
  | .brsh k => Sys2Proof.Machine.execBrsh k s
  | .brlo k => Sys2Proof.Machine.execBrlo k s
  | .brmi k => Sys2Proof.Machine.execBrmi k s
  | .brpl k => Sys2Proof.Machine.execBrpl k s
  | .brge k => Sys2Proof.Machine.execBrge k s
  | .brlt k => Sys2Proof.Machine.execBrlt k s
  | .brhs k => Sys2Proof.Machine.execBrhs k s
  | .brhc k => Sys2Proof.Machine.execBrhc k s
  | .brts k => Sys2Proof.Machine.execBrts k s
  | .brtc k => Sys2Proof.Machine.execBrtc k s
  | .brvs k => Sys2Proof.Machine.execBrvs k s
  | .brvc k => Sys2Proof.Machine.execBrvc k s
  | .brie k => Sys2Proof.Machine.execBrie k s
  | .brid k => Sys2Proof.Machine.execBrid k s
  -- PMEGA only (44_mega_extension.md)
  | .movw rd rr => Sys2Proof.Machine.execMovw rd rr s
  | .lpmZ rd => Sys2Proof.Machine.execLpmZ rd s
  | .lpmZInc rd => Sys2Proof.Machine.execLpmZInc rd s
  | .spm => Sys2Proof.Machine.execSpm s
  | .brk => Sys2Proof.Machine.execBreak s
  | .mul rd rr => Sys2Proof.Machine.execMul rd rr s
  | .muls rd rr => Sys2Proof.Machine.execMuls rd rr s
  | .mulsu rd rr => Sys2Proof.Machine.execMulsu rd rr s
  | .fmul rd rr => Sys2Proof.Machine.execFmul rd rr s
  | .fmuls rd rr => Sys2Proof.Machine.execFmuls rd rr s
  | .fmulsu rd rr => Sys2Proof.Machine.execFmulsu rd rr s
  | .jmp k => Sys2Proof.Machine.execJmp k s
  | .call k => Sys2Proof.Machine.execCall k s

end Sys2Proof.Machine
end

