-- ==== Sys2Proof/Machine/Step.lean ====
section
/-! DEFINITION. One step of the machine (60_exceptions.md R355), and the placing of one instruction where the
next step fetches it. -/

namespace Sys2Proof.Machine

/-- The instruction at `pc`, fetched and executed (R355). -/
def State.runInstr (s : State) : Host.Outcome State Fault Refusal :=
  match s.fetch with
  | .ok i => exec i s
  | .error f => .fault f

/-- `Step()` after the environment's events of its boundary (R355). -/
def State.stepCore (s : State) : Host.Outcome State Fault Refusal :=
  match s.action with
  | .interrupt n q => outcome (s.takeInterrupt n q)
  | .sleep => .next s
  | .execute => s.beginInstr.runInstr

/-- `Step()` (R355): the environment's events, then an interrupt, a step of sleep, or an instruction. -/
def step (s : State) : Host.Outcome State Fault Refusal := s.takeInputs.stepCore

/-- `s` with the instruction whose bits are `w`, those above `nbits` being 0, stored in program memory at `pc`, so
that the very next step runs it: awake, no interrupt taken and no event before it (entry 12). -/
def State.withFetchWord (s : State) (nbits w : Nat) : State :=
  let v := w % 2 ^ nbits
  let w0 : Word := BitVec.ofNat 16 (v % 2 ^ 16)
  let w1 : Word := BitVec.ofNat 16 (v / 2 ^ 16 % 2 ^ 16)
  let t := { s with cfg := configForWord s.cfg w0 w1 }
  let u := (t.storeProgWord t.pc.toNat w0).storeProgWord (t.pcPlus 1).toNat w1
  { u with
    sleeping := false
    inhibit := u.inhibit || u.deliverable.isSome
    inputs := match u.inputs with
      | [] => []
      | b :: bs => [] :: b :: bs }

end Sys2Proof.Machine
end

