-- ==== Sys2Proof/Safety.lean ====
section
/-! DEFINITION. The terms statements are made in: what memory reads as, what an instruction leaves alone, the
invariant of every state a run reaches, the environments of a run, and the conventions for the end of a
run (70_reset_and_hazards.md R383). -/

namespace Sys2Proof.Machine

/-! ## Frames -/

/-- Every byte of the SRAM and of program memory reads as before. -/
def SameMemory (s t : State) : Prop :=
  (∀ a : Nat, t.sramByte a = s.sramByte a) ∧ ∀ b : Nat, t.flashByte b = s.flashByte b

/-- Every byte of program memory, and every SRAM byte but those at the listed addresses, reads as before. -/
def SameMemoryBut (as : List Word) (s t : State) : Prop :=
  (∀ a : Nat, (∀ b ∈ as, a ≠ b.toNat) → t.sramByte a = s.sramByte a) ∧
    ∀ b : Nat, t.flashByte b = s.flashByte b

/-- Every working register but the listed ones is as before. -/
def SameRegsBut (rs : List Reg) (s t : State) : Prop := ∀ j : Reg, j ∉ rs → t.reg j = s.reg j

/-- Every flag but the listed ones is as before. -/
def SameFlagsBut (fs : List Flag) (s t : State) : Prop := ∀ f : Flag, f ∉ fs → t.flag f = s.flag f

/-- The parameters, the device registers, the pins, the sleep flag and the environment's future are as before. -/
def SameDevices (s t : State) : Prop :=
  t.cfg = s.cfg ∧ t.io = s.io ∧ t.pinB = s.pinB ∧ t.pinD = s.pinD ∧ t.prev = s.prev ∧
    t.sleeping = s.sleeping ∧ t.inputs = s.inputs

/-- What an instruction with these destination registers and flags, that touches neither memory nor the stack
pointer nor the interrupt delay, leaves alone. -/
def FrameRegs (rs : List Reg) (fs : List Flag) (s t : State) : Prop :=
  SameRegsBut rs s t ∧ SameFlagsBut fs s t ∧ SameMemory s t ∧ SameDevices s t ∧ t.sp = s.sp ∧
    t.inhibit = s.inhibit

/-- What an instruction that stores leaves alone: registers but the listed ones, all flags, memory but the SRAM
bytes at the listed addresses, the devices, the stack pointer and the interrupt delay. -/
def FrameStore (rs : List Reg) (as : List Word) (s t : State) : Prop :=
  SameRegsBut rs s t ∧ SameFlagsBut [] s t ∧ SameMemoryBut as s t ∧ SameDevices s t ∧ t.sp = s.sp ∧
    t.inhibit = s.inhibit

/-- What an instruction that uses the stack leaves alone: all but the stack pointer, the PC, the listed registers
and the SRAM bytes at the listed addresses. -/
def FrameStack (rs : List Reg) (as : List Word) (s t : State) : Prop :=
  SameRegsBut rs s t ∧ SameFlagsBut [] s t ∧ SameMemoryBut as s t ∧ SameDevices s t ∧ t.inhibit = s.inhibit

/-! ## Places -/

/-- The data address is one of the SRAM (20_memory.md R60). -/
def State.sramAt (s : State) (a : Word) : Bool := decide (0x5F < a.toNat) && s.inSram a

/-- `SP - 1`, modulo `2^SPW` (10_state.md R32). -/
def State.spBelow (s : State) : Word := wrapTo s.cfg.spw (s.sp - 1)

/-- The PC is `d` words on from the PC before, modulo `2^PCW` (10_state.md R29). -/
def GoesBy (s t : State) (d : Int) : Prop := (t.pc.toNat : Int) = ((s.pc.toNat : Int) + d) % 2 ^ s.cfg.pcw

/-- The words that encode no instruction of the profile, pattern by pattern (30_encoding.md R114, R107). -/
def isReserved (p : Profile) (w : Word) : Bool :=
  (w &&& 0xFF00 == 0x0000 && w != 0x0000) ||
  (w &&& 0xFC00 == 0x9000 && [0x3, 0x6, 0x7, 0x8, 0xB].contains (w &&& 0x000F)) ||
  (w &&& 0xFE00 == 0x9200 && [0x4, 0x5].contains (w &&& 0x000F)) ||
  w &&& 0xFE0F == 0x9404 || w &&& 0xFE0F == 0x940B ||
  (w &&& 0xFE0F == 0x9409 && w != 0x9409 && w != 0x9509) ||
  (w &&& 0xFF0F == 0x9508 &&
    [0x20, 0x30, 0x40, 0x50, 0x60, 0x70, 0xB0, 0xD0, 0xF0].contains (w &&& 0x00F0)) ||
  w &&& 0xF808 == 0xF808 ||
  (p == .p2313 &&
    (w &&& 0xFF00 == 0x0100 || w &&& 0xFF00 == 0x0200 || w &&& 0xFF00 == 0x0300 || w &&& 0xFE0C == 0x940C ||
     w &&& 0xFE0E == 0x9004 || w &&& 0xFC00 == 0x9C00 || w == 0x9598 || w == 0x95E8))

/-! ## The arithmetic reading of flags (42_arithmetic_logic.md R219) -/

/-- The flags of `t` are those of the sum `a + b + c` with result `r`: C the carry out of bit 7, H out of bit 3,
V a signed sum outside -128 to 127. -/
def SumFlags (t : State) (a b r : Byte) (c : Bool) : Prop :=
  t.flag .c = decide (256 ≤ a.toNat + b.toNat + c.toNat) ∧
  t.flag .h = decide (16 ≤ a.toNat % 16 + b.toNat % 16 + c.toNat) ∧
  t.flag .v = decide (a.toInt + b.toInt + c.toNat < -128 ∨ 127 < a.toInt + b.toInt + c.toNat) ∧
  t.flag .n = decide (128 ≤ r.toNat) ∧ t.flag .z = decide (r.toNat = 0) ∧
  t.flag .s = (t.flag .n ^^ t.flag .v)

/-- The flags of `t` are those of the difference `a - b - c` with result `r`: C the borrow, H the borrow of the low
nibbles, V a signed difference outside -128 to 127; `z` is Z as it was, kept by a chain of subtractions. -/
def DiffFlags (t : State) (a b r : Byte) (c z : Bool) : Prop :=
  t.flag .c = decide (a.toNat < b.toNat + c.toNat) ∧
  t.flag .h = decide (a.toNat % 16 < b.toNat % 16 + c.toNat) ∧
  t.flag .v = decide (a.toInt - b.toInt - c.toNat < -128 ∨ 127 < a.toInt - b.toInt - c.toNat) ∧
  t.flag .n = decide (128 ≤ r.toNat) ∧ t.flag .z = (decide (r.toNat = 0) && z) ∧
  t.flag .s = (t.flag .n ^^ t.flag .v)

/-- Z, N, V, S of `t` from a result `r` and an overflow `v`: S is N xor V. -/
def ResultFlags (t : State) (r : Byte) (v : Bool) : Prop :=
  t.flag .v = v ∧ t.flag .n = decide (128 ≤ r.toNat) ∧ t.flag .z = decide (r.toNat = 0) ∧
  t.flag .s = (t.flag .n ^^ t.flag .v)

/-! ## Shapes of instructions -/

/-- `o` comes of pushing the word `ret` in `s`, low byte at SP and then high byte below it (10_state.md R33): a fault
of the first or second write is `o`'s, and else `o` is a next state, of which `p` says how it follows from the
state with both bytes pushed. -/
def PushesThen (o : Host.Outcome State Fault Refusal) (ret : Word) (s : State) (p : State → State → Prop) : Prop :=
  (∀ f, s.memWrite s.sp (ret.extractLsb' 0 8) = .error f → o = .fault f) ∧
  ∀ v w, s.memWrite s.sp (ret.extractLsb' 0 8) = .ok v → w = v.setSp (v.sp - 1) →
    (∀ f, w.memWrite w.sp (ret.extractLsb' 8 8) = .error f → o = .fault f) ∧
    ∀ x, w.memWrite w.sp (ret.extractLsb' 8 8) = .ok x → ∃ t, o = .next t ∧ p (x.setSp (x.sp - 1)) t

/-- `o` comes of popping a word in `s`, high byte from SP + 1 and then low byte from SP + 2 (10_state.md R33): a fault
of the first or second read is `o`'s, and else `o` is a next state, of which `p` says how it follows from the word
and the state with both bytes popped. -/
def PopsThen (o : Host.Outcome State Fault Refusal) (s : State) (p : Nat → State → State → Prop) : Prop :=
  ∀ u w, u = s.setSp (s.sp + 1) → w = u.setSp (u.sp + 1) →
    (∀ f, u.memRead u.sp = .error f → o = .fault f) ∧
    ∀ h, u.memRead u.sp = .ok h →
      (∀ f, w.memRead w.sp = .error f → o = .fault f) ∧
      ∀ l, w.memRead w.sp = .ok l → ∃ t, o = .next t ∧ p (h.toNat * 256 + l.toNat) w t

/-- `i` reads the byte at data address `a` into `rd` and goes on by `n` words; where the read faults, so does
`i`. -/
def LoadsByte (i : Instr) (a : Word) (rd : Reg) (n : Word) (s : State) : Prop :=
  (∀ v, s.memRead a = .ok v →
    ∃ t, exec i s = .next t ∧ t.reg rd = v ∧ FrameRegs [rd] [] s t ∧ t.pc = s.pcPlus n) ∧
  ∀ f, s.memRead a = .error f → exec i s = .fault f

/-- `i` stores `rr` at data address `a` and goes on by `n` words: into the SRAM, into a working register, or
into an I/O register; where the write faults, so does `i`. -/
def StoresByte (i : Instr) (a : Word) (rr : Reg) (n : Word) (s : State) : Prop :=
  (s.sramAt a = true →
    ∃ t, exec i s = .next t ∧ t.sramByte a.toNat = some (s.reg rr) ∧ FrameStore [] [a] s t ∧
      t.pc = s.pcPlus n) ∧
  (∀ d : Reg, a.toNat = d.val →
    ∃ t, exec i s = .next t ∧ t.reg d = s.reg rr ∧ FrameStore [d] [] s t ∧ t.pc = s.pcPlus n) ∧
  (∀ (p : IoAddr) (u : State), a.toNat = p.toNat + 0x20 → s.ioWrite p (s.reg rr) = .ok u →
    exec i s = .next (u.advance n)) ∧
  ∀ f, s.memWrite a (s.reg rr) = .error f → exec i s = .fault f

/-- `i` goes on by one word, or with condition `c` by one word and `k` more, and changes nothing else. -/
def BranchesIf (i : Instr) (c : Bool) (k : BitVec 7) (s : State) : Prop :=
  ∃ t, exec i s = .next t ∧ FrameRegs [] [] s t ∧ GoesBy s t (1 + if c then k.toInt else 0)

/-- `i` skips the next instruction if `c`, be it one word or two, and changes nothing but the PC. The word measured is
at PC + 1 modulo `2^PCW` (entry 23); one above FLASHEND faults by the model's choice (entry 22). -/
def SkipsIf (i : Instr) (c : Bool) (s : State) : Prop :=
  (c = false → ∃ t, exec i s = .next t ∧ FrameRegs [] [] s t ∧ GoesBy s t 1) ∧
  (c = true → ∀ w j, s.fetchWord (s.pcPlus 1) = .ok w → decode s.cfg.profile w 0 = .ok j →
    ∃ t, exec i s = .next t ∧ FrameRegs [] [] s t ∧ GoesBy s t (1 + wordLength s.cfg.profile w)) ∧
  (c = true → ∀ w, s.fetchWord (s.pcPlus 1) = .ok w → isReserved s.cfg.profile w = true →
    exec i s = .fault (.reservedOpcode (s.pcPlus 1) w)) ∧
  (c = true → s.cfg.flashWords ≤ (s.pcPlus 1).toNat →
    exec i s = .fault (.progAddressOutOfRange (2 * (s.pcPlus 1).toNat)))

/-- `i` gives one flag the value `b` and goes on by one word; setting I from 0 delays interrupts (60_exceptions.md
R355). -/
def GivesFlag (i : Instr) (f : Flag) (b : Bool) (s : State) : Prop :=
  ∃ t, exec i s = .next t ∧ t.flag f = b ∧ SameFlagsBut [f] s t ∧ SameRegsBut [] s t ∧ SameMemory s t ∧
    SameDevices s t ∧ t.sp = s.sp ∧ t.inhibit = (s.inhibit || (f == .i && b && !s.flag .i)) ∧
    t.pc = s.pcPlus 1

/-- `i` writes the byte `r` to `rd`, its sign, zero and overflow flags from `r` and `v`, and the other listed
flags, and goes on by one word. -/
def GivesByte (i : Instr) (rd : Reg) (r : Byte) (v : Bool) (fs : List (Flag × Bool)) (s : State) : Prop :=
  ∃ t, exec i s = .next t ∧ t.reg rd = r ∧ ResultFlags t r v ∧ (∀ c ∈ fs, t.flag c.1 = c.2) ∧
    FrameRegs [rd] ([.v, .n, .z, .s] ++ fs.map (·.1)) s t ∧ t.pc = s.pcPlus 1

/-- `i` writes the low 16 bits of the product `p`, doubled where `sh`, to R1:R0, C from bit 15 of the product and
Z from the word written, and goes on by one word. -/
def GivesProduct (i : Instr) (p : Int) (sh : Bool) (s : State) : Prop :=
  ∃ t, exec i s = .next t ∧ t.pair 0 = BitVec.ofInt 16 (if sh then 2 * p else p) ∧
    t.flag .c = decide (0x8000 ≤ p % 0x10000) ∧ t.flag .z = decide (t.pair 0 = 0) ∧
    FrameRegs [0, 1] [.c, .z] s t ∧ t.pc = s.pcPlus 1

/-! ## The invariant -/

/-- The reserved bits of the device registers are 0 (10_state.md R44, 60_exceptions.md R348). -/
def IoFile.wf (io : IoFile) : Bool :=
  io.gimsk &&& 0xC0 == io.gimsk && io.gifr &&& 0xC0 == io.gifr && io.timsk &&& 0xCA == io.timsk &&
  io.tifr &&& 0xCA == io.tifr && io.mcucr &&& 0x3F == io.mcucr && io.tccr0 &&& 0x07 == io.tccr0 &&
  io.tccr1a &&& 0xC3 == io.tccr1a && io.tccr1b &&& 0xCF == io.tccr1b &&
  io.portD &&& 0x7F == io.portD && io.ddrD &&& 0x7F == io.ddrD

/-- `prev` holds levels of PD2 to PD5 only (60_exceptions.md R342). -/
def State.prevWf (s : State) : Bool := s.prev &&& 0x3C == s.prev

/-- The invariant: sound parameters, PC and SP within their widths, reserved bits 0, memories in canonical form,
SRAM cells at SRAM addresses. -/
def State.wf (s : State) : Bool :=
  s.cfg.wf && decide (s.pc.toNat < 2 ^ s.cfg.pcw) && decide (s.sp.toNat < 2 ^ s.cfg.spw) &&
  s.io.wf && s.prevWf &&
  Memory.wf none s.sram && Memory.within s.cfg.sramStart.toNat s.cfg.ramend.toNat s.sram &&
  Memory.wf (some erasedByte) s.flash

/-! ## Runs -/

/-- `n` steps, stopping at the first fault or refusal. -/
def run : Nat → State → Host.Outcome State Fault Refusal
  | 0, s => .next s
  | n + 1, s =>
    match step s with
    | .next t => run n t
    | .fault f => .fault f
    | .refused r => .refused r

/-- `t` is reached from `s` in some number of steps. -/
def Reaches (s t : State) : Prop := ∃ n, run n s = .next t

/-! ## The end of a run (70_reset_and_hazards.md R383) -/

/-- Convention (a): the PC has reached `cfg.halt_pc`. -/
def State.atHaltPc (s : State) : Bool := s.cfg.haltPc == some s.pc

/-- Nothing is deliverable or can become so: I = 0, or no enable bit set (R383). -/
def State.quiet (s : State) : Bool := !s.flag .i || s.cfg.vectors.all fun q => !s.enabled q

/-- Convention (b): the instruction at `pc` is `rjmp` to itself and nothing can interrupt it. -/
def State.inIdleLoop (s : State) : Bool := s.progWord s.pc.toNat == 0xCFFF && s.quiet

/-- The run has ended by one of the two conventions. -/
def State.ended (s : State) : Bool := s.atHaltPc || s.inIdleLoop

/-- Asleep, with nothing that can become deliverable: a terminal state of the run (60_exceptions.md R366). -/
def State.sleepsForever (s : State) : Bool := s.sleeping && s.quiet

end Sys2Proof.Machine
end

