-- ==== Sys2Proof/Certificates/Slice0/Obligations.lean ====
section
/-! DEFINITION. The statements for the provers. OBLIGATIONS.json says of each which rule it formalises or rests on. -/

open Sys2Proof Sys2Proof.Machine

/-! ## Encoding -/

/-- Every well-formed instruction of a profile has as many words as R91 says, and they decode to its base
instruction on that profile (30_encoding.md R91 to R113); a word of PMEGA only is rejected on P2313. -/
def Obligations.DecodeEncode : Prop :=
  ∀ (p : Profile) (i : Instr), i.wf = true →
    match encode i with
    | [w] => wordLength p w = 1 ∧ ∀ w1,
        if i.onProfile p then decode p w w1 = .ok i.base else decode p w w1 = .error (.reserved w)
    | [w, w1] =>
        if i.onProfile p then wordLength p w = 2 ∧ decode p w w1 = .ok i.base
        else decode p w w1 = .error (.reserved w)
    | _ => False

/-- What the decoder answers is well formed, of the profile, a base instruction, and has exactly the words read
(30_encoding.md R113). -/
def Obligations.EncodeDecode : Prop :=
  ∀ (p : Profile) (w w1 : Word) (i : Instr), decode p w w1 = .ok i →
    i.wf = true ∧ i.onProfile p = true ∧ i.core = true ∧
      encode i = if wordLength p w = 2 then [w, w1] else [w]

/-- The length rule, and a few words the spec prints with their instructions. -/
def Obligations.DecodedExampleWords : Prop :=
  (∀ w : Word, wordLength .p2313 w = 2 ↔ w &&& 0xFE0F = 0x9000 ∨ w &&& 0xFE0F = 0x9200) ∧
  decode .p2313 0x0F01 0 = .ok (.add 16 17) ∧ decode .p2313 0xE003 0 = .ok (.ldi 16 3) ∧
  decode .p2313 0xAD0F 0 = .ok (.lddY 16 63) ∧ decode .p2313 0x9100 0x0060 = .ok (.lds 16 0x60) ∧
  decode .p2313 0x960D 0 = .ok (.adiw 24 13) ∧ decode .p2313 0x9AC2 0 = .ok (.sbi 0x18 2) ∧
  decode .p2313 0xCFFF 0 = .ok (.rjmp (-1)) ∧ decode .p2313 0xF7F1 0 = .ok (.brbc 1 (-2)) ∧
  decode .p2313 0x9468 0 = .ok (.bset 6) ∧ decode .p2313 0xFD03 0 = .ok (.sbrc 16 3) ∧
  decode .pmega 0x01CF 0 = .ok (.movw 24 30) ∧ decode .pmega 0x0389 0 = .ok (.fmulsu 16 17) ∧
  decode .pmega 0x940E 0x0100 = .ok (.call 0x100)

/-- The decoder rejects exactly the reserved words of each profile (30_encoding.md R114). -/
def Obligations.ReservedWords : Prop :=
  ∀ (p : Profile) (w w1 : Word), decode p w w1 = .error (.reserved w) ↔ isReserved p w = true

/-- A second spelling does what its base instruction does, in every state (30_encoding.md R112, R113). -/
def Obligations.AliasesActAsTheirBase : Prop :=
  ∀ (i : Instr) (s : State), exec i s = exec i.base s

/-! ## The step -/

/-- A step whose boundary leaves no deliverable interrupt and the machine awake runs the instruction the words at
the PC decode to, in the state after the environment's events (`takeInputs`, see EnvironmentEvents) with the interrupt
delay cleared (60_exceptions.md R355). That a second word is the one at PC + 1 modulo 2^PCW, so at FLASHEND word 0, is
the model's reading of R66 by 10_state.md R29: entry 23, DEDUCED. -/
def Obligations.StepRunsDecodedInstruction : Prop :=
  ∀ (s u : State) (i : Instr) (w1 : Word), u = s.takeInputs → u.deliverable = none → u.sleeping = false →
    u.pc.toNat < u.cfg.flashWords →
    (wordLength u.cfg.profile (u.progWord u.pc.toNat) = 2 →
      (u.pcPlus 1).toNat < u.cfg.flashWords ∧ w1 = u.progWord (u.pcPlus 1).toNat) →
    decode u.cfg.profile (u.progWord u.pc.toNat) w1 = .ok i →
    step s = exec i { u with inhibit := false }

/-- Every step keeps the invariant `State.wf`: sound parameters, PC and SP within their widths (10_state.md R28,
R30), reserved bits 0 (R44), SRAM and program memory in canonical form, SRAM cells at SRAM addresses only. -/
def Obligations.StepKeepsInvariant : Prop :=
  ∀ s t : State, s.wf = true → step s = .next t → t.wf = true

/-- The invariant holds after reset, of the machine and of both parameter sets. -/
def Obligations.ResetMeetsInvariant : Prop :=
  State.reset.wf = true ∧ (State.resetOf Config.p2313).wf = true ∧ (State.resetOf Config.pmega).wf = true

/-- No step changes what an instruction fetch or LPM reads, nor the parameters (20_memory.md R67, R77). -/
def Obligations.StepKeepsProgramMemory : Prop :=
  ∀ s t : State, step s = .next t →
    t.cfg = s.cfg ∧ (∀ b, t.flashByte b = s.flashByte b) ∧ ∀ w, t.fetchWord w = s.fetchWord w

/-- No step is refused; only SPM and BREAK stop as unmodelled instructions (60_exceptions.md R331). -/
def Obligations.StepIsNeverRefused : Prop :=
  (∀ (s : State) (r : Refusal), step s ≠ .refused r) ∧
  ∀ (s : State) (m : String), step s = .fault (.unmodelledInstruction m) →
    (s.takeInputs.fetch = .ok .spm ∧ m = "SPM") ∨ (s.takeInputs.fetch = .ok .brk ∧ m = "BREAK")

/-- A fetch of a reserved word faults (30_encoding.md R116), and so does a fetch above FLASHEND, of the first word or of
a second one (20_memory.md R66 for LPM; of the fetch itself the model's choice, entry 22; that the second word is at
PC + 1 modulo 2^PCW, entry 23). -/
def Obligations.FetchFaults : Prop :=
  ∀ s u : State, u = s.takeInputs → u.deliverable = none → u.sleeping = false →
    (u.cfg.flashWords ≤ u.pc.toNat → step s = .fault (.progAddressOutOfRange (2 * u.pc.toNat))) ∧
    (u.pc.toNat < u.cfg.flashWords → isReserved u.cfg.profile (u.progWord u.pc.toNat) = true →
      step s = .fault (.reservedOpcode u.pc (u.progWord u.pc.toNat))) ∧
    (u.pc.toNat < u.cfg.flashWords → wordLength u.cfg.profile (u.progWord u.pc.toNat) = 2 →
      u.cfg.flashWords ≤ (u.pcPlus 1).toNat → step s = .fault (.progAddressOutOfRange (2 * (u.pcPlus 1).toNat)))

/-! ## Reset -/

/-- The values of 10_state.md R47. The model's choices among them: working registers 0 (entry 1), the parameters those
of P2313 (entry 4), floating pins low (entry 9), no program loaded (entry 12), so that every byte of program memory
reads as the $FF of erased flash (20_memory.md R67; entry 22). -/
def Obligations.ResetValues : Prop :=
  let s := State.reset
  s.cfg = Config.p2313 ∧ s.pc = 0 ∧ s.sreg = 0 ∧ s.sp = 0 ∧
  (∀ r : IoReg, s.ioRegRead r = 0) ∧ s.sleeping = false ∧ s.inhibit = false ∧ s.prev = s.watchedLevels ∧
  (∀ a, s.sramByte a = none) ∧ (∀ b, s.flashByte b = 0xFF) ∧ (∀ r : Reg, s.reg r = 0) ∧ s.deliverable = none

/-- A reset of the running chip gives every register its reset value, forgets the SRAM, keeps the program, and
remembers the pin levels of that moment (70_reset_and_hazards.md R380, R381; registers: entry 1, the event:
entry 10). -/
def Obligations.ResetEvent : Prop :=
  ∀ s t : State, t = s.event .reset →
    t.cfg = s.cfg ∧ t.pc = 0 ∧ t.sreg = 0 ∧ t.sp = 0 ∧ t.io = IoFile.reset ∧ t.sleeping = false ∧
    t.inhibit = false ∧ t.prev = t.watchedLevels ∧ t.pinB = s.pinB ∧ t.pinD = s.pinD ∧ t.inputs = s.inputs ∧
    (∀ a, t.sramByte a = none) ∧ (∀ b, t.flashByte b = s.flashByte b) ∧ (∀ r : Reg, t.reg r = 0)

/-! ## The data space -/

/-- What a read and a write of a data address do, region by region (20_memory.md R62, R63; 10_state.md R22); that an
SRAM byte nothing has written faults is R48's choice, kept by entry 2. -/
def Obligations.DataSpaceAccesses : Prop :=
  ∀ (s : State) (a : Word) (v : Byte),
    (∀ r : Reg, a.toNat = r.val → s.memRead a = .ok (s.reg r) ∧
      ∃ t, s.memWrite a v = .ok t ∧ t.reg r = v ∧ FrameStore [r] [] s t ∧ t.pc = s.pc) ∧
    (∀ p : IoAddr, a.toNat = p.toNat + 0x20 → s.memRead a = s.ioRead p ∧ s.memWrite a v = s.ioWrite p v) ∧
    (s.sramAt a = true →
      (∀ x, s.sramByte a.toNat = some x → s.memRead a = .ok x) ∧
      (s.sramByte a.toNat = none → s.memRead a = .error (.uninitialisedRead a)) ∧
      ∃ t, s.memWrite a v = .ok t ∧ t.sramByte a.toNat = some v ∧ FrameStore [] [a] s t ∧ t.pc = s.pc) ∧
    (0x60 ≤ a.toNat → a.toNat < s.cfg.sramStart.toNat ∨ s.cfg.ramend.toNat < a.toNat →
      s.memRead a = .error (.dataAddressOutOfRange a) ∧ s.memWrite a v = .error (.dataAddressOutOfRange a))

/-- I/O register A has data address A + $20: IN, OUT, SBI, CBI, SBIC and SBIS reach the same register as a load and
a store of that address (20_memory.md R61); what a taken skip does is 43_branch.md R294 and 30_encoding.md R116, with the
word at PC + 1 modulo 2^PCW (entry 23, DEDUCED) and the fault of a skip above FLASHEND (entry 22, DESIGN CHOICE) the
model's. -/
def Obligations.IoSpaceIsDataSpace : Prop :=
  ∀ (s : State) (p : IoAddr) (a : Word) (r : Reg) (v : Byte), a.toNat = p.toNat + 0x20 →
    s.ioRead p = s.memRead a ∧ s.ioWrite p v = s.memWrite a v ∧
    (∀ t, exec (.inPort r p) s = .next t → ∃ u, exec (.lds r a) s = .next u ∧ u = { t with pc := u.pc }) ∧
    (∀ t, exec (.outPort p r) s = .next t → ∃ u, exec (.sts a r) s = .next u ∧ u = { t with pc := u.pc }) ∧
    ∀ (q : BitVec 5) (b : BitNo) (x : Byte), lowIoAddr q = p → s.memRead a = .ok x →
      (∀ y u, (∀ n : BitNo, byteBit y n = if n = b then true else byteBit x n) → s.memWrite a y = .ok u →
        exec (.sbi q b) s = .next (u.advance 1)) ∧
      (∀ y u, (∀ n : BitNo, byteBit y n = if n = b then false else byteBit x n) → s.memWrite a y = .ok u →
        exec (.cbi q b) s = .next (u.advance 1)) ∧
      (s.cfg.pcw ≤ 16 → SkipsIf (.sbic q b) (!x.getLsbD b.val) s ∧ SkipsIf (.sbis q b) (x.getLsbD b.val) s)

/-- Reading an I/O register after writing it: the implemented bits of the value; an interrupt flag is cleared where
a 1 is written and kept where a 0 is (60_exceptions.md R347, R348). Every other register reads as it was, but for PINB
after a write of PORTB or DDRB; a write of PORTD or DDRD is the masked store and then `PinsChanged` (R342, R362; see
PinEdges). -/
def Obligations.IoRegisterReadBack : Prop :=
  ∀ (s t : State) (v : Byte) (r : IoReg), s.wf = true → s.ioRegWrite v r = some t →
    (match r with
      | .gifr => t.ioRegRead .gifr = s.ioRegRead .gifr &&& ~~~v
      | .tifr => t.ioRegRead .tifr = s.ioRegRead .tifr &&& ~~~v
      | .gimsk => t.ioRegRead r = v &&& 0xC0
      | .timsk => t.ioRegRead r = v &&& 0xCA
      | .mcucr => t.ioRegRead r = v &&& 0x3F
      | .tccr0 => t.ioRegRead r = v &&& 0x07
      | .tccr1a => t.ioRegRead r = v &&& 0xC3
      | .tccr1b => t.ioRegRead r = v &&& 0xCF
      | .portD => t.ioRegRead r = v &&& 0x7F
      | .ddrD => t.ioRegRead r = v &&& 0x7F
      | .sph => s.cfg.spw = 16 → t.ioRegRead r = v
      | .sreg => t.ioRegRead r = v
      | .spl => t.ioRegRead r = v
      | .tcnt0 => t.ioRegRead r = v
      | .tcnt1h => t.ioRegRead r = v
      | .tcnt1l => t.ioRegRead r = v
      | .ocr1ah => t.ioRegRead r = v
      | .ocr1al => t.ioRegRead r = v
      | .icr1h => t.ioRegRead r = v
      | .icr1l => t.ioRegRead r = v
      | .portB => t.ioRegRead r = v
      | .ddrB => t.ioRegRead r = v
      | .pinB => False
      | .pinD => False) ∧
    (r ≠ .portD → r ≠ .ddrD → t.prev = s.prev ∧
      ∀ q, q ≠ r → ((r = .portB ∨ r = .ddrB) → q ≠ .pinB) → t.ioRegRead q = s.ioRegRead q) ∧
    (r = .portD → t = (s.setIo { s.io with portD := v &&& 0x7F }).pinsChanged) ∧
    (r = .ddrD → t = (s.setIo { s.io with ddrD := v &&& 0x7F }).pinsChanged)

/-- On the AT90S2313 an access to an I/O address that has no register faults, by IN, OUT, SBI, CBI, SBIC or SBIS or
through its data address, and so does a write of PINB or PIND (60_exceptions.md R349). -/
def Obligations.UnmodelledIoFaults : Prop :=
  ∀ (s : State) (r : Reg) (b : BitNo), s.cfg.ioMap = Config.p2313IoMap →
    (∀ p : IoAddr, p ∉ Config.p2313IoMap.map (·.2) →
      exec (.inPort r p) s = .fault (.unmodelledIo p .read) ∧
      exec (.outPort p r) s = .fault (.unmodelledIo p .write) ∧
      ∀ (a : Word) (v : Byte), a.toNat = p.toNat + 0x20 →
        s.memRead a = .error (.unmodelledIo p .read) ∧ s.memWrite a v = .error (.unmodelledIo p .write)) ∧
    (∀ q : BitVec 5, lowIoAddr q ∉ Config.p2313IoMap.map (·.2) →
      exec (.sbi q b) s = .fault (.unmodelledIo (lowIoAddr q) .read) ∧
      exec (.cbi q b) s = .fault (.unmodelledIo (lowIoAddr q) .read) ∧
      exec (.sbic q b) s = .fault (.unmodelledIo (lowIoAddr q) .read) ∧
      exec (.sbis q b) s = .fault (.unmodelledIo (lowIoAddr q) .read)) ∧
    ∀ q : BitVec 5, q = 0x16 ∨ q = 0x10 →
      exec (.outPort (lowIoAddr q) r) s = .fault (.unmodelledIo (lowIoAddr q) .write) ∧
      exec (.sbi q b) s = .fault (.unmodelledIo (lowIoAddr q) .write) ∧
      exec (.cbi q b) s = .fault (.unmodelledIo (lowIoAddr q) .write) ∧
      ∀ (a : Word) (v : Byte), a.toNat = (lowIoAddr q).toNat + 0x20 →
        s.memWrite a v = .error (.unmodelledIo (lowIoAddr q) .write)

/-! ## Data transfer -/

/-- MOV, LDI, SER, MOVW write their register or pair and nothing else (40_data_transfer.md R130, R131;
42_arithmetic_logic.md R239; 44_mega_extension.md R310). -/
def Obligations.MovesComplete : Prop :=
  ∀ (s : State) (rd rr : Reg) (k : Byte),
    (∃ t, exec (.mov rd rr) s = .next t ∧ t.reg rd = s.reg rr ∧ FrameRegs [rd] [] s t ∧ t.pc = s.pcPlus 1) ∧
    (∃ t, exec (.ldi rd k) s = .next t ∧ t.reg rd = k ∧ FrameRegs [rd] [] s t ∧ t.pc = s.pcPlus 1) ∧
    (∃ t, exec (.ser rd) s = .next t ∧ t.reg rd = 0xFF ∧ FrameRegs [rd] [] s t ∧ t.pc = s.pcPlus 1) ∧
    ∃ t, exec (.movw rd rr) s = .next t ∧ t.reg rd = s.reg rr ∧ t.reg (pairHigh rd) = s.reg (pairHigh rr) ∧
      FrameRegs [rd, pairHigh rd] [] s t ∧ t.pc = s.pcPlus 1

/-- The loads that leave their pointer alone (40_data_transfer.md R132, R135, R138, R139, R142, R143;
displacement addresses: 20_memory.md R64). -/
def Obligations.PlainLoads : Prop :=
  ∀ (s : State) (rd : Reg) (q : BitVec 6) (k : Word),
    LoadsByte (.ldX rd) (s.ptr .x) rd 1 s ∧ LoadsByte (.ldY rd) (s.ptr .y) rd 1 s ∧
    LoadsByte (.ldZ rd) (s.ptr .z) rd 1 s ∧
    (∀ a : Word, a.toNat = ((s.ptr .y).toNat + q.toNat) % 0x10000 → LoadsByte (.lddY rd q) a rd 1 s) ∧
    (∀ a : Word, a.toNat = ((s.ptr .z).toNat + q.toNat) % 0x10000 → LoadsByte (.lddZ rd q) a rd 1 s) ∧
    LoadsByte (.lds rd k) k rd 2 s

/-- The post-increment loads: the byte at the pointer, then the pointer one up modulo $10000; a fault of the read
is the instruction's (40_data_transfer.md R133, R136, R140; 20_memory.md R64). -/
def Obligations.PostIncrementLoads : Prop :=
  ∀ (s : State) (rd : Reg) (i : Instr) (p : Ptr),
    (i = .ldXInc rd ∧ p = .x) ∨ (i = .ldYInc rd ∧ p = .y) ∨ (i = .ldZInc rd ∧ p = .z) →
    p.holds rd = false →
    (∀ v, s.memRead (s.ptr p) = .ok v →
      ∃ t, exec i s = .next t ∧ t.reg rd = v ∧ (t.ptr p).toNat = ((s.ptr p).toNat + 1) % 0x10000 ∧
        FrameRegs [rd, p.low, pairHigh p.low] [] s t ∧ t.pc = s.pcPlus 1) ∧
    ∀ f, s.memRead (s.ptr p) = .error f → exec i s = .fault f

/-- The pre-decrement loads: the pointer one down modulo $10000, then the byte there (40_data_transfer.md R134,
R137, R141; 20_memory.md R64). -/
def Obligations.PreDecrementLoads : Prop :=
  ∀ (s u : State) (rd : Reg) (i : Instr) (p : Ptr) (a : Word),
    (i = .ldXDec rd ∧ p = .x) ∨ (i = .ldYDec rd ∧ p = .y) ∨ (i = .ldZDec rd ∧ p = .z) →
    p.holds rd = false → a.toNat = ((s.ptr p).toNat + 0xFFFF) % 0x10000 → u = s.setPtr p a →
    (∀ v, u.memRead a = .ok v →
      ∃ t, exec i s = .next t ∧ t.reg rd = v ∧ t.ptr p = a ∧
        FrameRegs [rd, p.low, pairHigh p.low] [] s t ∧ t.pc = s.pcPlus 1) ∧
    ∀ f, u.memRead a = .error f → exec i s = .fault f

/-- The stores that leave their pointer alone (40_data_transfer.md R144, R147, R150, R151, R154, R155;
20_memory.md R64, R65). -/
def Obligations.PlainStores : Prop :=
  ∀ (s : State) (rr : Reg) (q : BitVec 6) (k : Word),
    StoresByte (.stX rr) (s.ptr .x) rr 1 s ∧ StoresByte (.stY rr) (s.ptr .y) rr 1 s ∧
    StoresByte (.stZ rr) (s.ptr .z) rr 1 s ∧
    (∀ a : Word, a.toNat = ((s.ptr .y).toNat + q.toNat) % 0x10000 → StoresByte (.stdY q rr) a rr 1 s) ∧
    (∀ a : Word, a.toNat = ((s.ptr .z).toNat + q.toNat) % 0x10000 → StoresByte (.stdZ q rr) a rr 1 s) ∧
    StoresByte (.sts k rr) k rr 2 s

/-- The post-increment stores: the byte to the address the pointer holds, be it SRAM, a register or an I/O register,
then the pointer one up modulo $10000 (40_data_transfer.md R145, R148, R152; 20_memory.md R64). -/
def Obligations.PostIncrementStores : Prop :=
  ∀ (s : State) (rr : Reg) (i : Instr) (p : Ptr) (a : Word),
    (i = .stXInc rr ∧ p = .x) ∨ (i = .stYInc rr ∧ p = .y) ∨ (i = .stZInc rr ∧ p = .z) →
    a = s.ptr p → p.holds rr = false → p.holdsAddr a = false →
    (s.sramAt a = true →
      ∃ t, exec i s = .next t ∧ t.sramByte a.toNat = some (s.reg rr) ∧
        (t.ptr p).toNat = (a.toNat + 1) % 0x10000 ∧ FrameStore [p.low, pairHigh p.low] [a] s t ∧
        t.pc = s.pcPlus 1) ∧
    (∀ d : Reg, a.toNat = d.val →
      ∃ t, exec i s = .next t ∧ t.reg d = s.reg rr ∧ (t.ptr p).toNat = (a.toNat + 1) % 0x10000 ∧
        FrameStore [d, p.low, pairHigh p.low] [] s t ∧ t.pc = s.pcPlus 1) ∧
    (∀ (b : IoAddr) (u : State), a.toNat = b.toNat + 0x20 → s.ioWrite b (s.reg rr) = .ok u →
      exec i s = .next ((u.setPtr p (a + 1)).advance 1)) ∧
    ∀ f, s.memWrite a (s.reg rr) = .error f → exec i s = .fault f

/-- The pre-decrement stores: the pointer one down modulo $10000, then the byte to that address (40_data_transfer.md
R146, R149, R153; 20_memory.md R64). -/
def Obligations.PreDecrementStores : Prop :=
  ∀ (s u : State) (rr : Reg) (i : Instr) (p : Ptr) (a : Word),
    (i = .stXDec rr ∧ p = .x) ∨ (i = .stYDec rr ∧ p = .y) ∨ (i = .stZDec rr ∧ p = .z) →
    a.toNat = ((s.ptr p).toNat + 0xFFFF) % 0x10000 → u = s.setPtr p a →
    p.holds rr = false → p.holdsAddr a = false →
    (s.sramAt a = true →
      ∃ t, exec i s = .next t ∧ t.sramByte a.toNat = some (s.reg rr) ∧ t.ptr p = a ∧
        FrameStore [p.low, pairHigh p.low] [a] s t ∧ t.pc = s.pcPlus 1) ∧
    (∀ d : Reg, a.toNat = d.val →
      ∃ t, exec i s = .next t ∧ t.reg d = s.reg rr ∧ t.ptr p = a ∧
        FrameStore [d, p.low, pairHigh p.low] [] s t ∧ t.pc = s.pcPlus 1) ∧
    (∀ (b : IoAddr) (t : State), a.toNat = b.toNat + 0x20 → u.ioWrite b (s.reg rr) = .ok t →
      exec i s = .next (t.advance 1)) ∧
    ∀ f, u.memWrite a (s.reg rr) = .error f → exec i s = .fault f

/-- A modifying load or store whose data register is one of its pointer's two, and a modifying store whose address
is that of one of them, fault (40_data_transfer.md R160); so does LPM Rd,Z+ into half of Z (44_mega_extension.md
R312). -/
def Obligations.UndefinedOperandCombinations : Prop :=
  ∀ (s : State) (r : Reg) (f : Fault), f = .undefinedOperandCombination s.pc →
    (r = 26 ∨ r = 27 → exec (.ldXInc r) s = .fault f ∧ exec (.ldXDec r) s = .fault f ∧
      exec (.stXInc r) s = .fault f ∧ exec (.stXDec r) s = .fault f) ∧
    (r = 28 ∨ r = 29 → exec (.ldYInc r) s = .fault f ∧ exec (.ldYDec r) s = .fault f ∧
      exec (.stYInc r) s = .fault f ∧ exec (.stYDec r) s = .fault f) ∧
    (r = 30 ∨ r = 31 → exec (.ldZInc r) s = .fault f ∧ exec (.ldZDec r) s = .fault f ∧
      exec (.stZInc r) s = .fault f ∧ exec (.stZDec r) s = .fault f ∧ exec (.lpmZInc r) s = .fault f) ∧
    (s.ptr .x = 0x1A ∨ s.ptr .x = 0x1B → exec (.stXInc r) s = .fault f) ∧
    (s.ptr .y = 0x1C ∨ s.ptr .y = 0x1D → exec (.stYInc r) s = .fault f) ∧
    (s.ptr .z = 0x1E ∨ s.ptr .z = 0x1F → exec (.stZInc r) s = .fault f) ∧
    (s.ptr .x = 0x1B ∨ s.ptr .x = 0x1C → exec (.stXDec r) s = .fault f) ∧
    (s.ptr .y = 0x1D ∨ s.ptr .y = 0x1E → exec (.stYDec r) s = .fault f) ∧
    (s.ptr .z = 0x1F ∨ s.ptr .z = 0x20 → exec (.stZDec r) s = .fault f)

/-- The three LPM forms: the byte of program memory at byte address Z, low byte of the word where Z is even, high
byte where it is odd; above FLASHEND a fault (40_data_transfer.md R156; 44_mega_extension.md R311, R312;
20_memory.md R66). -/
def Obligations.ProgramMemoryLoads : Prop :=
  ∀ (s : State) (rd : Reg) (z : Nat) (w : Word) (v : Byte), z = (s.ptr .z).toNat → w = s.progWord (z / 2) →
    v = (if z % 2 = 0 then w.extractLsb' 0 8 else w.extractLsb' 8 8) →
    (z / 2 < s.cfg.flashWords →
      v = s.flashByte z ∧
      (∃ t, exec .lpm s = .next t ∧ t.reg 0 = v ∧ FrameRegs [0] [] s t ∧ t.pc = s.pcPlus 1) ∧
      (∃ t, exec (.lpmZ rd) s = .next t ∧ t.reg rd = v ∧ FrameRegs [rd] [] s t ∧ t.pc = s.pcPlus 1) ∧
      (rd ≠ 30 → rd ≠ 31 → ∃ t, exec (.lpmZInc rd) s = .next t ∧ t.reg rd = v ∧
        (t.ptr .z).toNat = (z + 1) % 0x10000 ∧ FrameRegs [rd, 30, 31] [] s t ∧ t.pc = s.pcPlus 1)) ∧
    (s.cfg.flashWords ≤ z / 2 →
      exec .lpm s = .fault (.progAddressOutOfRange z) ∧ exec (.lpmZ rd) s = .fault (.progAddressOutOfRange z) ∧
      (rd ≠ 30 → rd ≠ 31 → exec (.lpmZInc rd) s = .fault (.progAddressOutOfRange z)))

/-- IN reads an I/O register into a working register; OUT writes one and changes neither working registers nor
memory; OUT to SREG writes all eight bits and delays interrupts where it sets I (40_data_transfer.md R157, R158;
60_exceptions.md R348, R355). -/
def Obligations.PortTransfers : Prop :=
  ∀ (s : State) (r : Reg) (p : IoAddr) (q : IoReg), s.ioRegAt p = some q →
    (∃ t, exec (.inPort r p) s = .next t ∧ t.reg r = s.ioRegRead q ∧ FrameRegs [r] [] s t ∧
      t.pc = s.pcPlus 1) ∧
    (∀ u, s.ioRegWrite (s.reg r) q = some u →
      ∃ t, exec (.outPort p r) s = .next t ∧ t = u.advance 1 ∧ SameRegsBut [] s t ∧ SameMemory s t ∧
        t.cfg = s.cfg ∧ t.pinB = s.pinB ∧ t.pinD = s.pinD ∧ t.sleeping = s.sleeping ∧ t.pc = s.pcPlus 1) ∧
    (q = .sreg → ∃ t, exec (.outPort p r) s = .next t ∧ t.sreg = s.reg r ∧ SameRegsBut [] s t ∧
      SameMemory s t ∧ SameDevices s t ∧ t.sp = s.sp ∧
      t.inhibit = (s.inhibit || (!s.flag .i && byteBit (s.reg r) 7)) ∧ t.pc = s.pcPlus 1)

/-- PUSH stores at SP and moves SP down; POP moves SP up and reads there (10_state.md R32; 40_data_transfer.md R159,
R161). The stack may lie in the SRAM, in the register file or in the I/O block. -/
def Obligations.PushAndPop : Prop :=
  ∀ (s u : State) (r : Reg), u = s.setSp (s.sp + 1) →
    (s.sramAt s.sp = true →
      ∃ t, exec (.push r) s = .next t ∧ t.sramByte s.sp.toNat = some (s.reg r) ∧ t.sp = s.spBelow ∧
        FrameStack [] [s.sp] s t ∧ t.pc = s.pcPlus 1) ∧
    (∀ d : Reg, s.sp.toNat = d.val →
      ∃ t, exec (.push r) s = .next t ∧ t.reg d = s.reg r ∧ t.sp = s.spBelow ∧ FrameStack [d] [] s t ∧
        t.pc = s.pcPlus 1) ∧
    (∀ (p : IoAddr) (w : State), s.sp.toNat = p.toNat + 0x20 → s.ioWrite p (s.reg r) = .ok w →
      exec (.push r) s = .next ((w.setSp (w.sp - 1)).advance 1)) ∧
    (∀ f, s.memWrite s.sp (s.reg r) = .error f → exec (.push r) s = .fault f) ∧
    (∀ v, u.memRead u.sp = .ok v →
      ∃ t, exec (.pop r) s = .next t ∧ t.reg r = v ∧ t.sp = u.sp ∧ FrameStack [r] [] s t ∧
        t.pc = s.pcPlus 1) ∧
    ∀ f, u.memRead u.sp = .error f → exec (.pop r) s = .fault f

/-- PUSH then POP, of whatever registers, moves the value and restores SP (40_data_transfer.md R161). -/
def Obligations.PushThenPop : Prop :=
  ∀ (s : State) (rr rd : Reg), s.wf = true → s.sramAt s.sp = true →
    ∃ t u, exec (.push rr) s = .next t ∧ exec (.pop rd) t = .next u ∧ u.reg rd = s.reg rr ∧ u.sp = s.sp ∧
      SameRegsBut [rd] s u ∧ SameFlagsBut [] s u ∧ SameMemoryBut [s.sp] s u

/-! ## Arithmetic and logic -/

/-- ADD and ADC: the sum modulo 256 and all six arithmetic flags (42_arithmetic_logic.md R219, R220, R221). -/
def Obligations.Additions : Prop :=
  ∀ (s : State) (rd rr : Reg),
    (∃ t, exec (.add rd rr) s = .next t ∧
      (t.reg rd).toNat = ((s.reg rd).toNat + (s.reg rr).toNat) % 256 ∧
      SumFlags t (s.reg rd) (s.reg rr) (t.reg rd) false ∧ FrameRegs [rd] [.c, .z, .n, .v, .s, .h] s t ∧
      t.pc = s.pcPlus 1) ∧
    ∃ t, exec (.adc rd rr) s = .next t ∧
      (t.reg rd).toNat = ((s.reg rd).toNat + (s.reg rr).toNat + (s.flag .c).toNat) % 256 ∧
      SumFlags t (s.reg rd) (s.reg rr) (t.reg rd) (s.flag .c) ∧
      FrameRegs [rd] [.c, .z, .n, .v, .s, .h] s t ∧ t.pc = s.pcPlus 1

/-- SUB, SUBI, SBC, SBCI: the difference modulo 256 and all six arithmetic flags; SBC and SBCI keep Z clear once it
is (42_arithmetic_logic.md R219, R223 to R226). -/
def Obligations.Subtractions : Prop :=
  ∀ (s : State) (rd rr : Reg) (k b : Byte) (c z : Bool) (i : Instr),
    (i = .sub rd rr ∧ b = s.reg rr ∧ c = false ∧ z = true) ∨ (i = .subi rd k ∧ b = k ∧ c = false ∧ z = true) ∨
    (i = .sbc rd rr ∧ b = s.reg rr ∧ c = s.flag .c ∧ z = s.flag .z) ∨
    (i = .sbci rd k ∧ b = k ∧ c = s.flag .c ∧ z = s.flag .z) →
    ∃ t, exec i s = .next t ∧
      ((t.reg rd).toNat : Int) = ((s.reg rd).toNat - b.toNat - c.toNat : Int) % 256 ∧
      DiffFlags t (s.reg rd) b (t.reg rd) c z ∧ FrameRegs [rd] [.c, .z, .n, .v, .s, .h] s t ∧
      t.pc = s.pcPlus 1

/-- CP, CPC, CPI: the flags of the subtraction, no register written (43_branch.md R267 to R269). -/
def Obligations.Comparisons : Prop :=
  ∀ (s : State) (rd rr : Reg) (k b r : Byte) (c z : Bool) (i : Instr),
    (i = .cp rd rr ∧ b = s.reg rr ∧ c = false ∧ z = true) ∨ (i = .cpi rd k ∧ b = k ∧ c = false ∧ z = true) ∨
    (i = .cpc rd rr ∧ b = s.reg rr ∧ c = s.flag .c ∧ z = s.flag .z) →
    (r.toNat : Int) = ((s.reg rd).toNat - b.toNat - c.toNat : Int) % 256 →
    ∃ t, exec i s = .next t ∧ DiffFlags t (s.reg rd) b r c z ∧ FrameRegs [] [.c, .z, .n, .v, .s, .h] s t ∧
      t.pc = s.pcPlus 1

/-- After CP Rd,Rr the conditional branches branch as their names say: BREQ iff equal, BRLO iff below and BRSH iff
not, unsigned, BRLT iff less and BRGE iff not, signed (43_branch.md R267, R276, R280, R281, R284, R285). -/
def Obligations.CompareThenBranch : Prop :=
  ∀ (s t : State) (rd rr : Reg) (k : BitVec 7), s.cfg.pcw ≤ 16 → exec (.cp rd rr) s = .next t →
    BranchesIf (.breq k) (decide (s.reg rd = s.reg rr)) k t ∧
    BranchesIf (.brne k) (decide (s.reg rd ≠ s.reg rr)) k t ∧
    BranchesIf (.brlo k) (decide ((s.reg rd).toNat < (s.reg rr).toNat)) k t ∧
    BranchesIf (.brsh k) (decide ((s.reg rr).toNat ≤ (s.reg rd).toNat)) k t ∧
    BranchesIf (.brlt k) (decide ((s.reg rd).toInt < (s.reg rr).toInt)) k t ∧
    BranchesIf (.brge k) (decide ((s.reg rr).toInt ≤ (s.reg rd).toInt)) k t

/-- ADIW and SBIW: the pair modulo $10000, C the carry or borrow of 16 bits, V the signed overflow, Z of all 16 bits,
H as it was (42_arithmetic_logic.md R222, R227). -/
def Obligations.WordArithmetic : Prop :=
  ∀ (s : State) (rd : Reg) (k : BitVec 6) (w : Word), w = s.pair rd →
    (∃ t, exec (.adiw rd k) s = .next t ∧ (t.pair rd).toNat = (w.toNat + k.toNat) % 0x10000 ∧
      t.flag .c = decide (0x10000 ≤ w.toNat + k.toNat) ∧ t.flag .v = decide (0x7FFF < w.toInt + k.toNat) ∧
      t.flag .n = decide (0x8000 ≤ (t.pair rd).toNat) ∧ t.flag .z = decide ((t.pair rd).toNat = 0) ∧
      t.flag .s = (t.flag .n ^^ t.flag .v) ∧ FrameRegs [rd, pairHigh rd] [.c, .z, .n, .v, .s] s t ∧
      t.pc = s.pcPlus 1) ∧
    ∃ t, exec (.sbiw rd k) s = .next t ∧ ((t.pair rd).toNat : Int) = (w.toNat - k.toNat : Int) % 0x10000 ∧
      t.flag .c = decide (w.toNat < k.toNat) ∧ t.flag .v = decide (w.toInt - k.toNat < -0x8000) ∧
      t.flag .n = decide (0x8000 ≤ (t.pair rd).toNat) ∧ t.flag .z = decide ((t.pair rd).toNat = 0) ∧
      t.flag .s = (t.flag .n ^^ t.flag .v) ∧ FrameRegs [rd, pairHigh rd] [.c, .z, .n, .v, .s] s t ∧
      t.pc = s.pcPlus 1

/-- AND, ANDI, OR, ORI, EOR, SBR, CBR: the bitwise result, V cleared, C and H as they were; TST writes the same flags
and no register (42_arithmetic_logic.md R228 to R232, R237; 41_bit_and_bit_test.md R172, R173). -/
def Obligations.LogicOperations : Prop :=
  ∀ (s : State) (rd rr : Reg) (k : Byte),
    GivesByte (.and rd rr) rd (s.reg rd &&& s.reg rr) false [] s ∧
    GivesByte (.andi rd k) rd (s.reg rd &&& k) false [] s ∧
    GivesByte (.or rd rr) rd (s.reg rd ||| s.reg rr) false [] s ∧
    GivesByte (.ori rd k) rd (s.reg rd ||| k) false [] s ∧
    GivesByte (.eor rd rr) rd (s.reg rd ^^^ s.reg rr) false [] s ∧
    GivesByte (.sbr rd k) rd (s.reg rd ||| k) false [] s ∧
    GivesByte (.cbr rd k) rd (s.reg rd &&& (0xFF - k)) false [] s ∧
    GivesByte (.tst rd) rd (s.reg rd) false [] s

/-- COM, NEG, INC, DEC, CLR (42_arithmetic_logic.md R233 to R236, R238): COM sets C, NEG's flags are those of
0 - Rd, INC and DEC overflow at $7F and $80 and leave C and H. -/
def Obligations.OneOperandArithmetic : Prop :=
  ∀ (s : State) (rd : Reg) (v : Byte), v = s.reg rd →
    GivesByte (.com rd) rd (0xFF - v) false [(.c, true)] s ∧
    (∃ t, exec (.neg rd) s = .next t ∧ (t.reg rd).toNat = (256 - v.toNat) % 256 ∧
      DiffFlags t 0 v (t.reg rd) false true ∧ FrameRegs [rd] [.c, .z, .n, .v, .s, .h] s t ∧
      t.pc = s.pcPlus 1) ∧
    GivesByte (.inc rd) rd (v + 1) (decide (v = 0x7F)) [] s ∧
    GivesByte (.dec rd) rd (v - 1) (decide (v = 0x80)) [] s ∧
    GivesByte (.clr rd) rd 0 false [] s

/-- The flag helpers bit by bit, and their arithmetic readings (42_arithmetic_logic.md R219): C of a sum the carry
out of bit 7, H out of bit 3, V a signed sum out of range; C of a difference the borrow, H the low nibbles', V a signed
difference out of range; S = N xor V. -/
def Obligations.FlagHelpers : Prop :=
  ∀ (s t u l : State) (a b r d : Byte) (c z : Bool),
    r = a + b + (if c then 1 else 0) → t = s.setFlags (addFlags s.sreg a b r) →
    d = a - b - (if c then 1 else 0) → u = s.setFlags (subFlags s.sreg a b d z) →
    l = s.setFlags (logicFlags s.sreg r) →
    (t.flag .h = ((a[3] && b[3]) || (b[3] && !r[3]) || (!r[3] && a[3])) ∧
      t.flag .c = ((a[7] && b[7]) || (b[7] && !r[7]) || (!r[7] && a[7])) ∧
      t.flag .v = ((a[7] && b[7] && !r[7]) || (!a[7] && !b[7] && r[7])) ∧ SumFlags t a b r c) ∧
    (u.flag .h = ((!a[3] && b[3]) || (b[3] && d[3]) || (d[3] && !a[3])) ∧
      u.flag .c = ((!a[7] && b[7]) || (b[7] && d[7]) || (d[7] && !a[7])) ∧
      u.flag .v = ((a[7] && !b[7] && !d[7]) || (!a[7] && b[7] && d[7])) ∧
      DiffFlags u a b d c (!z || s.flag .z)) ∧
    ResultFlags l r false ∧ SameFlagsBut [.v, .n, .z, .s] s l ∧
    SameFlagsBut [.h, .c, .v, .n, .z, .s] s t ∧ SameFlagsBut [.h, .c, .v, .n, .z, .s] s u

/-- ADD on the low bytes then ADC on the high ones adds 16-bit numbers, carry included; SUB then SBC subtracts them,
and Z tells whether the whole difference is zero (42_arithmetic_logic.md R240, R225). -/
def Obligations.MultiByteArithmetic : Prop :=
  ∀ (s : State) (dl dh rl rh : Reg) (a b : Nat), dl ≠ dh → dl ≠ rh →
    a = (s.reg dh).toNat * 256 + (s.reg dl).toNat → b = (s.reg rh).toNat * 256 + (s.reg rl).toNat →
    (∃ t u, exec (.add dl rl) s = .next t ∧ exec (.adc dh rh) t = .next u ∧
      (u.reg dh).toNat * 256 + (u.reg dl).toNat = (a + b) % 0x10000 ∧
      u.flag .c = decide (0x10000 ≤ a + b) ∧ SameRegsBut [dl, dh] s u) ∧
    ∃ t u, exec (.sub dl rl) s = .next t ∧ exec (.sbc dh rh) t = .next u ∧
      (((u.reg dh).toNat * 256 + (u.reg dl).toNat : Nat) : Int) = ((a : Int) - b) % 0x10000 ∧
      u.flag .c = decide (a < b) ∧ u.flag .z = decide (a = b) ∧ SameRegsBut [dl, dh] s u

/-! ## Bits -/

/-- LSL, LSR, ROL, ROR, ASR as numbers: the result, C the bit shifted out, V = N xor C, H only by the left ones
(41_bit_and_bit_test.md R174 to R178). -/
def Obligations.ShiftsAndRotates : Prop :=
  ∀ (s : State) (rd : Reg) (v r : Byte) (c out : Bool), v = s.reg rd → c = s.flag .c →
    (r.toNat = v.toNat * 2 % 256 → out = decide (128 ≤ v.toNat) →
      GivesByte (.lsl rd) rd r (decide (128 ≤ r.toNat) ^^ out) [(.c, out), (.h, decide (8 ≤ v.toNat % 16))] s) ∧
    (r.toNat = (v.toNat * 2 + c.toNat) % 256 → out = decide (128 ≤ v.toNat) →
      GivesByte (.rol rd) rd r (decide (128 ≤ r.toNat) ^^ out) [(.c, out), (.h, decide (8 ≤ v.toNat % 16))] s) ∧
    (r.toNat = v.toNat / 2 → out = decide (v.toNat % 2 = 1) →
      GivesByte (.lsr rd) rd r (decide (128 ≤ r.toNat) ^^ out) [(.c, out)] s) ∧
    (r.toNat = v.toNat / 2 + 128 * c.toNat → out = decide (v.toNat % 2 = 1) →
      GivesByte (.ror rd) rd r (decide (128 ≤ r.toNat) ^^ out) [(.c, out)] s) ∧
    (r.toInt = v.toInt / 2 → out = decide (v.toNat % 2 = 1) →
      GivesByte (.asr rd) rd r (decide (128 ≤ r.toNat) ^^ out) [(.c, out)] s)

/-- SWAP exchanges the nibbles, BST copies a register bit to T, BLD copies T to a register bit
(41_bit_and_bit_test.md R179, R182, R183). -/
def Obligations.SwapAndTransferBit : Prop :=
  ∀ (s : State) (r : Reg) (b : BitNo),
    (∃ t, exec (.swap r) s = .next t ∧ (t.reg r).toNat = (s.reg r).toNat % 16 * 16 + (s.reg r).toNat / 16 ∧
      FrameRegs [r] [] s t ∧ t.pc = s.pcPlus 1) ∧
    (∃ t, exec (.bst r b) s = .next t ∧ t.flag .t = (s.reg r).getLsbD b.val ∧ FrameRegs [] [.t] s t ∧
      t.pc = s.pcPlus 1) ∧
    ∃ t, exec (.bld r b) s = .next t ∧
      (∀ n : Nat, n < 8 → (t.reg r).getLsbD n = if n = b.val then s.flag .t else (s.reg r).getLsbD n) ∧
      FrameRegs [r] [] s t ∧ t.pc = s.pcPlus 1

/-- BSET and BCLR of every bit, and the sixteen named forms: one flag written, every other kept
(41_bit_and_bit_test.md R180, R181, R184 to R199; 60_exceptions.md R355). -/
def Obligations.FlagInstructions : Prop :=
  ∀ s : State,
    (∀ f : Flag, GivesFlag (.bset f.bit) f true s ∧ GivesFlag (.bclr f.bit) f false s) ∧
    (∀ n : BitNo, ∃ f : Flag, f.bit = n) ∧
    GivesFlag .sec .c true s ∧ GivesFlag .clc .c false s ∧ GivesFlag .sez .z true s ∧
    GivesFlag .clz .z false s ∧ GivesFlag .sen .n true s ∧ GivesFlag .cln .n false s ∧
    GivesFlag .sev .v true s ∧ GivesFlag .clv .v false s ∧ GivesFlag .ses .s true s ∧
    GivesFlag .cls .s false s ∧ GivesFlag .seh .h true s ∧ GivesFlag .clh .h false s ∧
    GivesFlag .setT .t true s ∧ GivesFlag .clt .t false s ∧ GivesFlag .sei .i true s ∧
    GivesFlag .cli .i false s

/-- SBI and CBI write the whole register with one bit replaced (41_bit_and_bit_test.md R170, R171); on PORTB and DDRB
that is the one bit of the port. -/
def Obligations.PortBitInstructions : Prop :=
  ∀ (s : State) (p : BitVec 5) (b : BitNo) (q : IoReg) (i : Instr) (x : Bool),
    (i = .sbi p b ∧ x = true) ∨ (i = .cbi p b ∧ x = false) → s.ioRegAt (lowIoAddr p) = some q →
    (∀ (v : Byte) (u : State), (∀ n : BitNo, byteBit v n = if n = b then x else byteBit (s.ioRegRead q) n) →
      s.ioRegWrite v q = some u →
      ∃ t, exec i s = .next t ∧ t = u.advance 1 ∧ SameRegsBut [] s t ∧ SameMemory s t ∧ t.pc = s.pcPlus 1) ∧
    (q = .portB ∨ q = .ddrB →
      ∃ t, exec i s = .next t ∧
        (∀ n : BitNo, byteBit (t.ioRegRead q) n = if n = b then x else byteBit (s.ioRegRead q) n) ∧
        SameRegsBut [] s t ∧ SameFlagsBut [] s t ∧ SameMemory s t ∧ t.sp = s.sp ∧ t.pc = s.pcPlus 1)

/-- NOP and WDR change nothing but the PC; SLEEP also sets `sleeping` where MCUCR.SE is 1
(41_bit_and_bit_test.md R200 to R202; 60_exceptions.md R366, R367). -/
def Obligations.NopWdrSleep : Prop :=
  ∀ s : State,
    (∃ t, exec .nop s = .next t ∧ FrameRegs [] [] s t ∧ t.pc = s.pcPlus 1) ∧
    (∃ t, exec .wdr s = .next t ∧ FrameRegs [] [] s t ∧ t.pc = s.pcPlus 1) ∧
    (byteBit s.io.mcucr 5 = false → ∃ t, exec .sleep s = .next t ∧ FrameRegs [] [] s t ∧ t.pc = s.pcPlus 1) ∧
    (byteBit s.io.mcucr 5 = true → ∃ t, exec .sleep s = .next t ∧ t.sleeping = true ∧
      FrameRegs [] [] s { t with sleeping := s.sleeping } ∧ t.pc = s.pcPlus 1)

/-! ## Branches -/

/-- BRBS and BRBC of every bit and the eighteen named branches: PC + 1 + k where the condition holds, else PC + 1,
modulo 2^PCW (43_branch.md R274 to R293; 10_state.md R29). -/
def Obligations.ConditionalBranches : Prop :=
  ∀ (s : State) (n : BitNo) (k : BitVec 7), s.cfg.pcw ≤ 16 →
    BranchesIf (.brbs n k) (byteBit s.sreg n) k s ∧ BranchesIf (.brbc n k) (!byteBit s.sreg n) k s ∧
    BranchesIf (.breq k) (s.flag .z) k s ∧ BranchesIf (.brne k) (!s.flag .z) k s ∧
    BranchesIf (.brcs k) (s.flag .c) k s ∧ BranchesIf (.brcc k) (!s.flag .c) k s ∧
    BranchesIf (.brsh k) (!s.flag .c) k s ∧ BranchesIf (.brlo k) (s.flag .c) k s ∧
    BranchesIf (.brmi k) (s.flag .n) k s ∧ BranchesIf (.brpl k) (!s.flag .n) k s ∧
    BranchesIf (.brge k) (!s.flag .s) k s ∧ BranchesIf (.brlt k) (s.flag .s) k s ∧
    BranchesIf (.brhs k) (s.flag .h) k s ∧ BranchesIf (.brhc k) (!s.flag .h) k s ∧
    BranchesIf (.brts k) (s.flag .t) k s ∧ BranchesIf (.brtc k) (!s.flag .t) k s ∧
    BranchesIf (.brvs k) (s.flag .v) k s ∧ BranchesIf (.brvc k) (!s.flag .v) k s ∧
    BranchesIf (.brie k) (s.flag .i) k s ∧ BranchesIf (.brid k) (!s.flag .i) k s

/-- RJMP, IJMP, JMP: PC + 1 + k, Z, k, each modulo 2^PCW; and what `pcPlus` is (43_branch.md R260, R261;
44_mega_extension.md R322; 10_state.md R29). -/
def Obligations.Jumps : Prop :=
  ∀ (s : State) (k : BitVec 12) (a : BitVec 22) (n : Word), s.cfg.pcw ≤ 16 →
    (∃ t, exec (.rjmp k) s = .next t ∧ FrameRegs [] [] s t ∧ GoesBy s t (1 + k.toInt)) ∧
    (∃ t, exec .ijmp s = .next t ∧ FrameRegs [] [] s t ∧
      t.pc.toNat = (s.ptr .z).toNat % 2 ^ s.cfg.pcw) ∧
    (∃ t, exec (.jmp a) s = .next t ∧ FrameRegs [] [] s t ∧ t.pc.toNat = a.toNat % 2 ^ s.cfg.pcw) ∧
    (s.pcPlus n).toNat = (s.pc.toNat + n.toNat) % 2 ^ s.cfg.pcw

/-- RCALL, ICALL, CALL: the return address on the stack, low byte at SP and high byte below it, SP two down, the PC at
the target (43_branch.md R262, R263; 44_mega_extension.md R323; 10_state.md R33). Wherever the stack lies a fault of the
first or second write is the call's, and else only the PC differs from the state with both bytes pushed; that ICALL
reads Z in that state is the order of its pseudocode (entry 24). With the stack in the SRAM the two bytes are named. -/
def Obligations.Calls : Prop :=
  ∀ (s : State) (k : BitVec 12) (a : BitVec 22) (i : Instr) (ret : Word) (target : State → Int),
    s.cfg.pcw ≤ 16 →
    (i = .rcall k ∧ ret = s.pcPlus 1 ∧ ∀ x, target x = s.pc.toNat + 1 + k.toInt) ∨
    (i = .icall ∧ ret = s.pcPlus 1 ∧ ∀ x, target x = (x.ptr .z).toNat) ∨
    (i = .call a ∧ ret = s.pcPlus 2 ∧ ∀ x, target x = a.toNat) →
    PushesThen (exec i s) ret s
      (fun x t => (t.pc.toNat : Int) = target x % 2 ^ s.cfg.pcw ∧ t = { x with pc := t.pc }) ∧
    (s.sramAt s.sp = true → s.sramAt s.spBelow = true →
      ∃ t, exec i s = .next t ∧ (t.pc.toNat : Int) = target s % 2 ^ s.cfg.pcw ∧
        t.sramByte s.sp.toNat = some (ret.extractLsb' 0 8) ∧
        t.sramByte s.spBelow.toNat = some (ret.extractLsb' 8 8) ∧
        t.sp = wrapTo s.cfg.spw (s.sp - 2) ∧ FrameStack [] [s.sp, s.spBelow] s t)

/-- RET and RETI: the high byte from SP + 1, the low byte from SP + 2; RETI also sets I and delays the next interrupt,
and restores no other flag; a fault of the first or second read is the instruction's (43_branch.md R264, R265;
10_state.md R33; 60_exceptions.md R358). -/
def Obligations.Returns : Prop :=
  ∀ s : State, s.cfg.pcw ≤ 16 →
    PopsThen (exec .ret s) s (fun a w t => t.pc.toNat = a % 2 ^ s.cfg.pcw ∧ t.sp = w.sp ∧ FrameStack [] [] s t) ∧
    PopsThen (exec .reti s) s (fun a w t => t.pc.toNat = a % 2 ^ s.cfg.pcw ∧ t.sp = w.sp ∧
      t.flag .i = true ∧ SameFlagsBut [.i] s t ∧ SameRegsBut [] s t ∧ SameMemory s t ∧ SameDevices s t ∧
      t.inhibit = true)

/-- A call and a return come back to the instruction after the call with SP, registers, flags and all other memory as
they were; an interrupt and a RETI to the instruction interrupted, with I and the interrupt delay set, awake, the
source's request cleared and all other state as it was (43_branch.md R262 to R265; 60_exceptions.md R356 to R358). -/
def Obligations.CallThenReturn : Prop :=
  ∀ (s : State) (k : BitVec 12) (a : BitVec 22) (i : Instr) (ret : Word) (n : Nat) (q : Irq), s.wf = true →
    s.sramAt s.sp = true → s.sramAt s.spBelow = true →
    ((i = .rcall k ∧ ret = s.pcPlus 1) ∨ (i = .icall ∧ ret = s.pcPlus 1) ∨ (i = .call a ∧ ret = s.pcPlus 2) →
      ∃ t u, exec i s = .next t ∧ exec .ret t = .next u ∧ u.pc = ret ∧ u.sp = s.sp ∧
        FrameStack [] [s.sp, s.spBelow] s u) ∧
    ∃ t u, s.takeInterrupt n q = .ok t ∧ exec .reti t = .next u ∧ u.pc = s.pc ∧ u.sp = s.sp ∧
      u.flag .i = true ∧ SameFlagsBut [.i] s u ∧ SameRegsBut [] s u ∧
      SameMemoryBut [s.sp, s.spBelow] s u ∧ u.io = s.io.clearRequest q ∧ u.pinB = s.pinB ∧ u.pinD = s.pinD ∧
      u.prev = s.prev ∧ u.cfg = s.cfg ∧ u.inputs = s.inputs ∧ u.inhibit = true ∧ u.sleeping = false

/-- CPSE, SBRC, SBRS, SBIC, SBIS skip one whole instruction, of one word or two, where the condition holds, and change
nothing but the PC; a reserved word has no length to measure and faults (43_branch.md R266, R270 to R273, R294;
30_encoding.md R116). That the word measured is at PC + 1 modulo 2^PCW (entry 23, DEDUCED, by 10_state.md R29) and that
one above FLASHEND faults ProgAddressOutOfRange (entry 22, DESIGN CHOICE) are the model's. -/
def Obligations.Skips : Prop :=
  ∀ (s : State) (rd rr : Reg) (b : BitNo) (p : BitVec 5), s.cfg.pcw ≤ 16 →
    SkipsIf (.cpse rd rr) (decide (s.reg rd = s.reg rr)) s ∧
    SkipsIf (.sbrc rr b) (!(s.reg rr).getLsbD b.val) s ∧ SkipsIf (.sbrs rr b) ((s.reg rr).getLsbD b.val) s ∧
    ∀ q, s.ioRegAt (lowIoAddr p) = some q →
      SkipsIf (.sbic p b) (!(s.ioRegRead q).getLsbD b.val) s ∧
      SkipsIf (.sbis p b) ((s.ioRegRead q).getLsbD b.val) s

/-! ## PMEGA -/

/-- The six multiplies as products of integers, signed or unsigned by operand, doubled by the fractional ones
(44_mega_extension.md R316 to R321). -/
def Obligations.Multiplies : Prop :=
  ∀ (s : State) (rd rr : Reg),
    GivesProduct (.mul rd rr) ((s.reg rd).toNat * (s.reg rr).toNat) false s ∧
    GivesProduct (.muls rd rr) ((s.reg rd).toInt * (s.reg rr).toInt) false s ∧
    GivesProduct (.mulsu rd rr) ((s.reg rd).toInt * (s.reg rr).toNat) false s ∧
    GivesProduct (.fmul rd rr) ((s.reg rd).toNat * (s.reg rr).toNat) true s ∧
    GivesProduct (.fmuls rd rr) ((s.reg rd).toInt * (s.reg rr).toInt) true s ∧
    GivesProduct (.fmulsu rd rr) ((s.reg rd).toInt * (s.reg rr).toNat) true s

/-- SPM, $95E8, and BREAK, $9598, stop in every state (44_mega_extension.md R314, R315). -/
def Obligations.SpmAndBreakStop : Prop :=
  encode .spm = [0x95E8] ∧ encode .brk = [0x9598] ∧
  ∀ s : State, exec .spm s = .fault (.unmodelledInstruction "SPM") ∧
    exec .brk s = .fault (.unmodelledInstruction "BREAK")

/-! ## Interrupts -/

/-- Interrupt entry: the PC on the stack, I cleared, the source's flag cleared unless it is the low level itself, the
PC at the vector, awake, no delay; SREG's other bits, registers and the rest of memory as they were
(60_exceptions.md R356). Wherever the stack lies a fault of the first or second write is the step's; with the stack in
the SRAM the two bytes are named. -/
def Obligations.InterruptEntry : Prop :=
  ∀ (s u : State) (n : Nat) (q : Irq), u = s.takeInputs → u.deliverable = some (n, q) → u.cfg.pcw ≤ 16 →
    PushesThen (step s) u.pc u (fun x t => t.pc.toNat = n * u.cfg.vectorStride % 2 ^ u.cfg.pcw ∧
      t.flag .i = false ∧ SameFlagsBut [.i] x t ∧
      t = { x with pc := t.pc, sreg := t.sreg, io := x.io.clearRequest q, sleeping := false, inhibit := false }) ∧
    (u.sramAt u.sp = true → u.sramAt u.spBelow = true →
      ∃ t, step s = .next t ∧ t.pc.toNat = n * u.cfg.vectorStride % 2 ^ u.cfg.pcw ∧
      t.sramByte u.sp.toNat = some (u.pc.extractLsb' 0 8) ∧
      t.sramByte u.spBelow.toNat = some (u.pc.extractLsb' 8 8) ∧ t.sp = wrapTo u.cfg.spw (u.sp - 2) ∧
      t.flag .i = false ∧ SameFlagsBut [.i] u t ∧ SameRegsBut [] u t ∧
      SameMemoryBut [u.sp, u.spBelow] u t ∧ t.sleeping = false ∧ t.inhibit = false ∧ t.cfg = u.cfg ∧
      t.io = u.io.clearRequest q ∧
      (match q with
        | .int0 => byteBit t.io.gifr 6 = (decide (u.io.mcucr.toNat % 4 = 0) && byteBit u.io.gifr 6)
        | .int1 => byteBit t.io.gifr 7 = (decide (u.io.mcucr.toNat / 4 % 4 = 0) && byteBit u.io.gifr 7)
        | .icp1 => byteBit t.io.tifr 3 = false
        | .oc1 => byteBit t.io.tifr 6 = false
        | .ovf1 => byteBit t.io.tifr 7 = false
        | .ovf0 => byteBit t.io.tifr 1 = false
        | .urxc | .udre | .utxc | .aci => True))

/-- An interrupt is deliverable exactly where I is 1, no delay holds and some enabled request stands; the one taken is
the pending one with the lowest vector number (60_exceptions.md R353, R354). -/
def Obligations.InterruptPriority : Prop :=
  ∀ s : State,
    (s.deliverable ≠ none ↔ s.flag .i = true ∧ s.inhibit = false ∧
      ∃ q ∈ s.cfg.vectors, s.request q = true ∧ s.enabled q = true) ∧
    ∀ n q, s.deliverable = some (n, q) →
      1 ≤ n ∧ s.cfg.vectors[n - 1]? = some q ∧ s.request q = true ∧ s.enabled q = true ∧
      ∀ m, 1 ≤ m → m < n → ∀ q', s.cfg.vectors[m - 1]? = some q' → (s.request q' && s.enabled q') = false

/-- The requests and enables of the vector table: an external interrupt's flag, or in low-level mode the level of its
pin; the timer flags; nothing for the sources with no register (60_exceptions.md R343, R345, R346, R350, R351). -/
def Obligations.InterruptSources : Prop :=
  ∀ s : State,
    (s.request .int0 = if s.io.mcucr.toNat % 4 = 0 then !byteBit s.levelsD 2 else byteBit s.io.gifr 6) ∧
    (s.request .int1 = if s.io.mcucr.toNat / 4 % 4 = 0 then !byteBit s.levelsD 3 else byteBit s.io.gifr 7) ∧
    s.request .icp1 = byteBit s.io.tifr 3 ∧ s.request .oc1 = byteBit s.io.tifr 6 ∧
    s.request .ovf1 = byteBit s.io.tifr 7 ∧ s.request .ovf0 = byteBit s.io.tifr 1 ∧
    s.enabled .int0 = byteBit s.io.gimsk 6 ∧ s.enabled .int1 = byteBit s.io.gimsk 7 ∧
    s.enabled .icp1 = byteBit s.io.timsk 3 ∧ s.enabled .oc1 = byteBit s.io.timsk 6 ∧
    s.enabled .ovf1 = byteBit s.io.timsk 7 ∧ s.enabled .ovf0 = byteBit s.io.timsk 1 ∧
    (∀ q, q = .urxc ∨ q = .udre ∨ q = .utxc ∨ q = .aci → s.request q = false) ∧
    (∀ n q, s.cfg = Config.p2313 → s.deliverable = some (n, q) → n ≤ 6)

/-- Straight after SEI that finds I = 0, and after RETI, no interrupt is taken, whatever the environment does at the
boundary; one more instruction runs first, and takes the delay off (60_exceptions.md R355). -/
def Obligations.InterruptDelay : Prop :=
  (∀ s t : State, exec .sei s = .next t → s.flag .i = false → t.takeInputs.deliverable = none) ∧
  (∀ s t : State, exec .reti s = .next t → t.takeInputs.deliverable = none) ∧
  (∀ s t : State, s.inhibit = false → s.flag .i = true → exec .sei s = .next t → t.inhibit = false) ∧
  ∀ s t : State, s.takeInputs.deliverable = none → s.takeInputs.sleeping = false →
    s.takeInputs.fetch = .ok .nop → step s = .next t → t.inhibit = false ∧ t.pc = s.takeInputs.pcPlus 1

/-- Asleep with nothing deliverable, a step is the environment's events and nothing more; a deliverable interrupt
wakes the core; with I = 0 and no reset to come it sleeps on (60_exceptions.md R355, R366). -/
def Obligations.Sleeping : Prop :=
  (∀ s : State, s.takeInputs.sleeping = true → s.takeInputs.deliverable = none →
    step s = .next s.takeInputs) ∧
  (∀ s t : State, s.takeInputs.deliverable ≠ none → step s = .next t → t.sleeping = false) ∧
  ∀ s : State, s.sleeping = true → s.flag .i = false → (∀ b ∈ s.inputs, EnvEvent.reset ∉ b) →
    ∃ t, step s = .next t ∧ t.sleeping = true ∧ t.flag .i = false ∧ SameRegsBut [] s t ∧ SameMemory s t ∧
      t.pc = s.pc ∧ t.sp = s.sp

/-! ## Devices -/

/-- The level of every pin, and what PINB and PIND read as: the output, else the drive from outside, else the pull-up,
else the environment's floating level; PD7 has no pin and reads 0 (60_exceptions.md R340, R348). -/
def Obligations.PinLevels : Prop :=
  ∀ (s : State) (n : BitNo),
    (byteBit (s.ioRegRead .pinB) n =
      if byteBit s.io.ddrB n then byteBit s.io.portB n
      else if byteBit s.pinB.driven n then byteBit s.pinB.drive n
      else byteBit s.io.portB n || byteBit s.pinB.float n) ∧
    (n ≠ 7 → byteBit (s.ioRegRead .pinD) n =
      if byteBit s.io.ddrD n then byteBit s.io.portD n
      else if byteBit s.pinD.driven n then byteBit s.pinD.drive n
      else byteBit s.io.portD n || byteBit s.pinD.float n) ∧
    byteBit (s.ioRegRead .pinD) 7 = false

/-- A change of PD2 or PD3 sets the external interrupt's flag where ISC asks for that edge, and no flag in low-level
mode; a change of PD4 or PD5 counts where CS asks for that edge, and the count's step to 0 sets the overflow flag; the
levels are then remembered, and nothing else changes (60_exceptions.md R342 to R345). -/
def Obligations.PinEdges : Prop :=
  ∀ (s t : State) (old new : Byte) (c0 c1 : Bool), t = s.pinsChanged → old = s.prev → new = s.levelsD &&& 0x3C →
    c0 = decide ((s.io.tccr0.toNat % 8 = 6 ∧ byteBit old 4 = true ∧ byteBit new 4 = false) ∨
      (s.io.tccr0.toNat % 8 = 7 ∧ byteBit old 4 = false ∧ byteBit new 4 = true)) →
    c1 = decide ((s.io.tccr1b.toNat % 8 = 6 ∧ byteBit old 5 = true ∧ byteBit new 5 = false) ∨
      (s.io.tccr1b.toNat % 8 = 7 ∧ byteBit old 5 = false ∧ byteBit new 5 = true)) →
    (∃ gifr tifr tcnt0 tcnt1, t = { s with
      io := { s.io with gifr := gifr, tifr := tifr, tcnt0 := tcnt0, tcnt1 := tcnt1 }, prev := new }) ∧
    (∀ n : BitNo, n ≠ 6 → n ≠ 7 → byteBit t.io.gifr n = byteBit s.io.gifr n) ∧
    (∀ (n : Nat) (pin bit : BitNo) (isc : Nat), (n = 0 ∧ pin = 2 ∧ bit = 6) ∨ (n = 1 ∧ pin = 3 ∧ bit = 7) →
      isc = s.io.mcucr.toNat / 4 ^ n % 4 →
      (byteBit t.io.gifr bit = true ↔ byteBit s.io.gifr bit = true ∨
        (isc = 2 ∧ byteBit old pin = true ∧ byteBit new pin = false) ∨
        (isc = 3 ∧ byteBit old pin = false ∧ byteBit new pin = true) ∨
        (isc = 1 ∧ byteBit old pin ≠ byteBit new pin))) ∧
    t.io.tcnt0 = (if c0 then s.io.tcnt0 + 1 else s.io.tcnt0) ∧
    t.io.tcnt1 = (if c1 then s.io.tcnt1 + 1 else s.io.tcnt1) ∧
    ∀ n : BitNo, byteBit t.io.tifr n = (byteBit s.io.tifr n || (n == 1 && c0 && s.io.tcnt0 == 0xFF) ||
      (n == 7 && c1 && s.io.tcnt1 == 0xFFFF))

/-- A prescaler tick counts one up modulo 2^8 or 2^16 where CS selects a prescaled clock, and the step to 0 sets the
overflow flag; every other flag of TIFR and all other state is kept (60_exceptions.md R342, R344, R345). A tick that
R342 does not allow does nothing, the model's choice (entry 8). -/
def Obligations.TimerTicks : Prop :=
  ∀ (s t u : State), t = s.event .tick0 → u = s.event .tick1 →
    (∀ cs, cs = s.io.tccr0.toNat % 8 →
      (1 ≤ cs → cs ≤ 5 → t.io.tcnt0.toNat = (s.io.tcnt0.toNat + 1) % 0x100 ∧
        t = s.setIo { s.io with tcnt0 := t.io.tcnt0, tifr := t.io.tifr } ∧
        ∀ n : BitNo, byteBit t.io.tifr n = (byteBit s.io.tifr n || (n == 1 && s.io.tcnt0 == 0xFF))) ∧
      (cs = 0 ∨ 6 ≤ cs → t = s)) ∧
    ∀ cs, cs = s.io.tccr1b.toNat % 8 →
      (1 ≤ cs → cs ≤ 5 → u.io.tcnt1.toNat = (s.io.tcnt1.toNat + 1) % 0x10000 ∧
        u = s.setIo { s.io with tcnt1 := u.io.tcnt1, tifr := u.io.tifr } ∧
        ∀ n : BitNo, byteBit u.io.tifr n = (byteBit s.io.tifr n || (n == 7 && s.io.tcnt1 == 0xFFFF))) ∧
      (cs = 0 ∨ 6 ≤ cs → u = s)

/-- A boundary performs the events of the schedule's first batch in order and takes that batch off; with an empty
schedule nothing happens (60_exceptions.md R342, R355; entry 7). Of the single events: a drive or a floating level
changes that one pin's outside and then `PinsChanged` runs (that the level of a pin that does not float now is kept until
it does is the model's choice, entry 33); a compare match or capture sets its flag (R346). -/
def Obligations.EnvironmentEvents : Prop :=
  ∀ (s : State) (x : Port) (n : BitNo) (v : Option Bool) (f : Bool),
    (s.inputs = [] → s.takeInputs = s) ∧
    (∀ batch rest, s.inputs = batch :: rest →
      s.takeInputs = batch.foldl State.event { s with inputs := rest } ∧ s.takeInputs.inputs = rest) ∧
    (∃ p q : PinDrive, s.event (.drive x n v) = ({ s with pinB := p, pinD := q } : State).pinsChanged ∧
      (match x with
        | .b => (∀ m, p.ext m = if m = n then v else s.pinB.ext m) ∧ p.float = s.pinB.float ∧ q = s.pinD
        | .d => (∀ m, q.ext m = if m = n then v else s.pinD.ext m) ∧ q.float = s.pinD.float ∧ p = s.pinB)) ∧
    (∃ p q : PinDrive, s.event (.float x n f) = ({ s with pinB := p, pinD := q } : State).pinsChanged ∧
      (match x with
        | .b => (∀ m, byteBit p.float m = if m = n then f else byteBit s.pinB.float m) ∧
            (∀ m, p.ext m = s.pinB.ext m) ∧ q = s.pinD
        | .d => (∀ m, byteBit q.float m = if m = n then f else byteBit s.pinD.float m) ∧
            (∀ m, q.ext m = s.pinD.ext m) ∧ p = s.pinB)) ∧
    (∃ b, s.event (.flag .ocf1a) = s.setIo { s.io with tifr := b } ∧
      ∀ m, byteBit b m = (byteBit s.io.tifr m || m == 6)) ∧
    ∃ b, s.event (.flag .icf1) = s.setIo { s.io with tifr := b } ∧
      ∀ m, byteBit b m = (byteBit s.io.tifr m || m == 3)
end

