-- ==== Sys2Proof/Laws/Decode.lean ====
section
/-! SUPPORT. Fields of a word, and the decoder's two answers. -/

namespace Sys2Proof

/-- A field of a word given as a number below 2^16. -/
theorem field_ofNat {n : Nat} (h : n < 2 ^ 16) (lo k : Nat) :
    field (BitVec.ofNat 16 n) lo k = n / 2 ^ lo % 2 ^ k := by
  simp only [field, BitVec.toNat_ofNat, Nat.mod_eq_of_lt h]

theorem field_lt (w : Word) (lo n : Nat) : field w lo n < 2 ^ n :=
  Nat.mod_lt _ (Nat.two_pow_pos n)

theorem decode_ok {p : Profile} {w w1 : Word} {i : Instr} :
    decode p w w1 = .ok i ↔ decode? p w w1 = some i := by
  unfold decode
  split <;> rename_i h <;> simp [h]

theorem decode_error {p : Profile} {w w1 : Word} {e : DecodeReject} :
    decode p w w1 = .error e ↔ decode? p w w1 = none ∧ e = .reserved w := by
  unfold decode
  split <;> rename_i h <;> simp [h, eq_comm]

theorem onMega_some {p : Profile} {i j : Instr} : onMega p i = some j ↔ p = .pmega ∧ i = j := by
  unfold onMega
  split <;> rename_i h <;> simp [h]

end Sys2Proof
end

