-- ==== Sys2Proof/Laws/Flags.lean ====
section
/-! SUPPORT. Bits of a byte, and each flag after each flag computation (42_arithmetic_logic.md R219). -/

namespace Sys2Proof.Machine

/-! ## Bits of a byte -/

@[simp] theorem byteBit_setByteBit (v : Byte) (n : BitNo) (b : Bool) (m : BitNo) :
    byteBit (setByteBit v n b) m = if m = n then b else byteBit v m := by
  have hm : m.val < 8 := m.isLt
  have hone : (1#8).getLsbD (m.val - n.val) = decide (m.val - n.val = 0) := by
    simp [BitVec.getLsbD_one]
  cases b
  · by_cases h : m = n
    · subst h
      simp [byteBit, setByteBit, hm]
    · have h' : m.val ≠ n.val := fun e => h (Fin.ext e)
      simp only [byteBit, setByteBit, Bool.false_eq_true, if_false, BitVec.getLsbD_and, BitVec.getLsbD_not,
        BitVec.getLsbD_shiftLeft, hone, hm, decide_true, Bool.true_and, h]
      rcases Nat.lt_or_ge m.val n.val with hlt | hge
      · simp [hlt]
      · have : m.val - n.val ≠ 0 := by omega
        simp [this]
  · by_cases h : m = n
    · subst h
      simp [byteBit, setByteBit, hm]
    · have h' : m.val ≠ n.val := fun e => h (Fin.ext e)
      simp only [byteBit, setByteBit, if_true, BitVec.getLsbD_or, BitVec.getLsbD_shiftLeft, hone, hm,
        decide_true, Bool.true_and, h, if_false]
      rcases Nat.lt_or_ge m.val n.val with hlt | hge
      · simp [hlt]
      · have : m.val - n.val ≠ 0 := by omega
        simp [this]

/-- Two bytes with the same bits are the same byte. -/
theorem byte_ext {v w : Byte} (h : ∀ n : BitNo, byteBit v n = byteBit w n) : v = w := by
  apply BitVec.eq_of_getLsbD_eq
  intro i hi
  exact h ⟨i, hi⟩

/-! ## Flags -/

@[simp] theorem Flag.bit_inj {f g : Flag} : f.bit = g.bit ↔ f = g := by
  cases f <;> cases g <;> decide

@[simp] theorem flagOf_setFlag (v : Byte) (f : Flag) (b : Bool) (g : Flag) :
    flagOf (setFlag v f b) g = if g = f then b else flagOf v g := by
  simp [flagOf, setFlag]

@[simp] theorem setFlagList_nil (v : Byte) : setFlagList v [] = v := rfl

@[simp] theorem setFlagList_cons (v : Byte) (f : Flag) (b : Bool) (fs : List (Flag × Bool)) :
    setFlagList v ((f, b) :: fs) = setFlagList (setFlag v f b) fs := rfl

/-- SREG is its eight flags. -/
theorem sreg_ext {v w : Byte} (h : ∀ f : Flag, flagOf v f = flagOf w f) : v = w := by
  apply byte_ext
  intro n
  match n with
  | 0 => exact h .c
  | 1 => exact h .z
  | 2 => exact h .n
  | 3 => exact h .v
  | 4 => exact h .s
  | 5 => exact h .h
  | 6 => exact h .t
  | 7 => exact h .i

/-! ## Each flag after each computation -/

theorem flagOf_addFlags (v a b r : Byte) (f : Flag) :
    flagOf (addFlags v a b r) f =
      match f with
      | .h => (byteBit a 3 && byteBit b 3) || (byteBit b 3 && !byteBit r 3) || (!byteBit r 3 && byteBit a 3)
      | .c => (byteBit a 7 && byteBit b 7) || (byteBit b 7 && !byteBit r 7) || (!byteBit r 7 && byteBit a 7)
      | .v => (byteBit a 7 && byteBit b 7 && !byteBit r 7) || (!byteBit a 7 && !byteBit b 7 && byteBit r 7)
      | .n => byteBit r 7
      | .z => r == 0
      | .s => byteBit r 7 ^^
          ((byteBit a 7 && byteBit b 7 && !byteBit r 7) || (!byteBit a 7 && !byteBit b 7 && byteBit r 7))
      | .t => flagOf v .t
      | .i => flagOf v .i := by
  cases f <;> simp [addFlags]

theorem flagOf_subFlags (v a b r : Byte) (keepZ : Bool) (f : Flag) :
    flagOf (subFlags v a b r keepZ) f =
      match f with
      | .h => (!byteBit a 3 && byteBit b 3) || (byteBit b 3 && byteBit r 3) || (byteBit r 3 && !byteBit a 3)
      | .c => (!byteBit a 7 && byteBit b 7) || (byteBit b 7 && byteBit r 7) || (byteBit r 7 && !byteBit a 7)
      | .v => (byteBit a 7 && !byteBit b 7 && !byteBit r 7) || (!byteBit a 7 && byteBit b 7 && byteBit r 7)
      | .n => byteBit r 7
      | .z => if keepZ then (r == 0) && flagOf v .z else r == 0
      | .s => byteBit r 7 ^^
          ((byteBit a 7 && !byteBit b 7 && !byteBit r 7) || (!byteBit a 7 && byteBit b 7 && byteBit r 7))
      | .t => flagOf v .t
      | .i => flagOf v .i := by
  cases f <;> simp [subFlags]

theorem flagOf_logicFlags (v r : Byte) (f : Flag) :
    flagOf (logicFlags v r) f =
      match f with
      | .v => false
      | .n => byteBit r 7
      | .z => r == 0
      | .s => byteBit r 7
      | .c => flagOf v .c
      | .h => flagOf v .h
      | .t => flagOf v .t
      | .i => flagOf v .i := by
  cases f <;> simp [logicFlags]

theorem flagOf_adiwFlags (v : Byte) (w r : Word) (f : Flag) :
    flagOf (adiwFlags v w r) f =
      match f with
      | .v => !w.getLsbD 15 && r.getLsbD 15
      | .c => !r.getLsbD 15 && w.getLsbD 15
      | .n => r.getLsbD 15
      | .z => r == 0
      | .s => r.getLsbD 15 ^^ (!w.getLsbD 15 && r.getLsbD 15)
      | .h => flagOf v .h
      | .t => flagOf v .t
      | .i => flagOf v .i := by
  cases f <;> simp [adiwFlags]

theorem flagOf_sbiwFlags (v : Byte) (w r : Word) (f : Flag) :
    flagOf (sbiwFlags v w r) f =
      match f with
      | .v => w.getLsbD 15 && !r.getLsbD 15
      | .c => r.getLsbD 15 && !w.getLsbD 15
      | .n => r.getLsbD 15
      | .z => r == 0
      | .s => r.getLsbD 15 ^^ (w.getLsbD 15 && !r.getLsbD 15)
      | .h => flagOf v .h
      | .t => flagOf v .t
      | .i => flagOf v .i := by
  cases f <;> simp [sbiwFlags]

theorem flagOf_comFlags (v r : Byte) (f : Flag) :
    flagOf (comFlags v r) f = if f = .c then true else flagOf (logicFlags v r) f := by
  simp [comFlags]

theorem flagOf_negFlags (v a r : Byte) (f : Flag) :
    flagOf (negFlags v a r) f =
      match f with
      | .h => byteBit r 3 || byteBit a 3
      | .v => r == 0x80
      | .c => r != 0
      | .n => byteBit r 7
      | .z => r == 0
      | .s => byteBit r 7 ^^ (r == 0x80)
      | .t => flagOf v .t
      | .i => flagOf v .i := by
  cases f <;> simp [negFlags]

theorem flagOf_stepFlags (v r o : Byte) (f : Flag) :
    flagOf (stepFlags v r o) f =
      match f with
      | .v => r == o
      | .n => byteBit r 7
      | .z => r == 0
      | .s => byteBit r 7 ^^ (r == o)
      | .c => flagOf v .c
      | .h => flagOf v .h
      | .t => flagOf v .t
      | .i => flagOf v .i := by
  cases f <;> simp [stepFlags]

theorem flagOf_shiftFlags (v : Byte) (c : Bool) (r : Byte) (f : Flag) :
    flagOf (shiftFlags v c r) f =
      match f with
      | .c => c
      | .n => byteBit r 7
      | .v => byteBit r 7 ^^ c
      | .z => r == 0
      | .s => byteBit r 7 ^^ (byteBit r 7 ^^ c)
      | .h => flagOf v .h
      | .t => flagOf v .t
      | .i => flagOf v .i := by
  cases f <;> simp [shiftFlags]

theorem flagOf_shiftLeftFlags (v a r : Byte) (f : Flag) :
    flagOf (shiftLeftFlags v a r) f =
      if f = .h then byteBit a 3 else flagOf (shiftFlags v (byteBit a 7) r) f := by
  cases f <;> simp [shiftLeftFlags, flagOf_shiftFlags]

theorem flagOf_clrFlags (v : Byte) (f : Flag) :
    flagOf (clrFlags v) f =
      match f with
      | .v => false
      | .n => false
      | .z => true
      | .s => false
      | .c => flagOf v .c
      | .h => flagOf v .h
      | .t => flagOf v .t
      | .i => flagOf v .i := by
  cases f <;> simp [clrFlags]

theorem flagOf_mulFlags (v : Byte) (p r : Word) (f : Flag) :
    flagOf (mulFlags v p r) f =
      match f with
      | .c => p.getLsbD 15
      | .z => r == 0
      | .n => flagOf v .n
      | .v => flagOf v .v
      | .s => flagOf v .s
      | .h => flagOf v .h
      | .t => flagOf v .t
      | .i => flagOf v .i := by
  cases f <;> simp [mulFlags]

end Sys2Proof.Machine
end

