-- ==== Sys2Proof/Laws/State.lean ====
section
/-! SUPPORT. What each update of the state does to each field, and to each view of the state it leaves alone. -/

namespace Sys2Proof.Machine

/-! ## Fields -/

@[simp] theorem setReg_cfg (s : State) (i : Reg) (v : Byte) : (s.setReg i v).cfg = s.cfg := rfl
@[simp] theorem setReg_regs (s : State) (i : Reg) (v : Byte) :
    (s.setReg i v).regs = s.regs.set i v := rfl
@[simp] theorem setReg_pc (s : State) (i : Reg) (v : Byte) : (s.setReg i v).pc = s.pc := rfl
@[simp] theorem setReg_sreg (s : State) (i : Reg) (v : Byte) : (s.setReg i v).sreg = s.sreg := rfl
@[simp] theorem setReg_sp (s : State) (i : Reg) (v : Byte) : (s.setReg i v).sp = s.sp := rfl
@[simp] theorem setReg_io (s : State) (i : Reg) (v : Byte) : (s.setReg i v).io = s.io := rfl
@[simp] theorem setReg_pinB (s : State) (i : Reg) (v : Byte) : (s.setReg i v).pinB = s.pinB := rfl
@[simp] theorem setReg_pinD (s : State) (i : Reg) (v : Byte) : (s.setReg i v).pinD = s.pinD := rfl
@[simp] theorem setReg_prev (s : State) (i : Reg) (v : Byte) : (s.setReg i v).prev = s.prev := rfl
@[simp] theorem setReg_sram (s : State) (i : Reg) (v : Byte) : (s.setReg i v).sram = s.sram := rfl
@[simp] theorem setReg_flash (s : State) (i : Reg) (v : Byte) :
    (s.setReg i v).flash = s.flash := rfl
@[simp] theorem setReg_sleeping (s : State) (i : Reg) (v : Byte) :
    (s.setReg i v).sleeping = s.sleeping := rfl
@[simp] theorem setReg_inhibit (s : State) (i : Reg) (v : Byte) :
    (s.setReg i v).inhibit = s.inhibit := rfl
@[simp] theorem setReg_inputs (s : State) (i : Reg) (v : Byte) :
    (s.setReg i v).inputs = s.inputs := rfl

@[simp] theorem setPair_cfg (s : State) (i : Reg) (w : Word) : (s.setPair i w).cfg = s.cfg := rfl
@[simp] theorem setPair_regs (s : State) (i : Reg) (w : Word) :
    (s.setPair i w).regs = ((s.setReg i (loByte w)).setReg (pairHigh i) (hiByte w)).regs := rfl
@[simp] theorem setPair_pc (s : State) (i : Reg) (w : Word) : (s.setPair i w).pc = s.pc := rfl
@[simp] theorem setPair_sreg (s : State) (i : Reg) (w : Word) : (s.setPair i w).sreg = s.sreg := rfl
@[simp] theorem setPair_sp (s : State) (i : Reg) (w : Word) : (s.setPair i w).sp = s.sp := rfl
@[simp] theorem setPair_io (s : State) (i : Reg) (w : Word) : (s.setPair i w).io = s.io := rfl
@[simp] theorem setPair_pinB (s : State) (i : Reg) (w : Word) : (s.setPair i w).pinB = s.pinB := rfl
@[simp] theorem setPair_pinD (s : State) (i : Reg) (w : Word) : (s.setPair i w).pinD = s.pinD := rfl
@[simp] theorem setPair_prev (s : State) (i : Reg) (w : Word) : (s.setPair i w).prev = s.prev := rfl
@[simp] theorem setPair_sram (s : State) (i : Reg) (w : Word) : (s.setPair i w).sram = s.sram := rfl
@[simp] theorem setPair_flash (s : State) (i : Reg) (w : Word) :
    (s.setPair i w).flash = s.flash := rfl
@[simp] theorem setPair_sleeping (s : State) (i : Reg) (w : Word) :
    (s.setPair i w).sleeping = s.sleeping := rfl
@[simp] theorem setPair_inhibit (s : State) (i : Reg) (w : Word) :
    (s.setPair i w).inhibit = s.inhibit := rfl
@[simp] theorem setPair_inputs (s : State) (i : Reg) (w : Word) :
    (s.setPair i w).inputs = s.inputs := rfl

@[simp] theorem setPtr_cfg (s : State) (p : Ptr) (w : Word) : (s.setPtr p w).cfg = s.cfg := rfl
@[simp] theorem setPtr_regs (s : State) (p : Ptr) (w : Word) :
    (s.setPtr p w).regs = (s.setPair p.low w).regs := rfl
@[simp] theorem setPtr_pc (s : State) (p : Ptr) (w : Word) : (s.setPtr p w).pc = s.pc := rfl
@[simp] theorem setPtr_sreg (s : State) (p : Ptr) (w : Word) : (s.setPtr p w).sreg = s.sreg := rfl
@[simp] theorem setPtr_sp (s : State) (p : Ptr) (w : Word) : (s.setPtr p w).sp = s.sp := rfl
@[simp] theorem setPtr_io (s : State) (p : Ptr) (w : Word) : (s.setPtr p w).io = s.io := rfl
@[simp] theorem setPtr_pinB (s : State) (p : Ptr) (w : Word) : (s.setPtr p w).pinB = s.pinB := rfl
@[simp] theorem setPtr_pinD (s : State) (p : Ptr) (w : Word) : (s.setPtr p w).pinD = s.pinD := rfl
@[simp] theorem setPtr_prev (s : State) (p : Ptr) (w : Word) : (s.setPtr p w).prev = s.prev := rfl
@[simp] theorem setPtr_sram (s : State) (p : Ptr) (w : Word) : (s.setPtr p w).sram = s.sram := rfl
@[simp] theorem setPtr_flash (s : State) (p : Ptr) (w : Word) :
    (s.setPtr p w).flash = s.flash := rfl
@[simp] theorem setPtr_sleeping (s : State) (p : Ptr) (w : Word) :
    (s.setPtr p w).sleeping = s.sleeping := rfl
@[simp] theorem setPtr_inhibit (s : State) (p : Ptr) (w : Word) :
    (s.setPtr p w).inhibit = s.inhibit := rfl
@[simp] theorem setPtr_inputs (s : State) (p : Ptr) (w : Word) :
    (s.setPtr p w).inputs = s.inputs := rfl

@[simp] theorem setPc_cfg (s : State) (t : Word) : (s.setPc t).cfg = s.cfg := rfl
@[simp] theorem setPc_regs (s : State) (t : Word) : (s.setPc t).regs = s.regs := rfl
@[simp] theorem setPc_pc (s : State) (t : Word) : (s.setPc t).pc = wrapTo s.cfg.pcw t := rfl
@[simp] theorem setPc_sreg (s : State) (t : Word) : (s.setPc t).sreg = s.sreg := rfl
@[simp] theorem setPc_sp (s : State) (t : Word) : (s.setPc t).sp = s.sp := rfl
@[simp] theorem setPc_io (s : State) (t : Word) : (s.setPc t).io = s.io := rfl
@[simp] theorem setPc_pinB (s : State) (t : Word) : (s.setPc t).pinB = s.pinB := rfl
@[simp] theorem setPc_pinD (s : State) (t : Word) : (s.setPc t).pinD = s.pinD := rfl
@[simp] theorem setPc_prev (s : State) (t : Word) : (s.setPc t).prev = s.prev := rfl
@[simp] theorem setPc_sram (s : State) (t : Word) : (s.setPc t).sram = s.sram := rfl
@[simp] theorem setPc_flash (s : State) (t : Word) : (s.setPc t).flash = s.flash := rfl
@[simp] theorem setPc_sleeping (s : State) (t : Word) : (s.setPc t).sleeping = s.sleeping := rfl
@[simp] theorem setPc_inhibit (s : State) (t : Word) : (s.setPc t).inhibit = s.inhibit := rfl
@[simp] theorem setPc_inputs (s : State) (t : Word) : (s.setPc t).inputs = s.inputs := rfl

@[simp] theorem advance_cfg (s : State) (n : Word) : (s.advance n).cfg = s.cfg := rfl
@[simp] theorem advance_regs (s : State) (n : Word) : (s.advance n).regs = s.regs := rfl
@[simp] theorem advance_pc (s : State) (n : Word) : (s.advance n).pc = s.pcPlus n := rfl
@[simp] theorem advance_sreg (s : State) (n : Word) : (s.advance n).sreg = s.sreg := rfl
@[simp] theorem advance_sp (s : State) (n : Word) : (s.advance n).sp = s.sp := rfl
@[simp] theorem advance_io (s : State) (n : Word) : (s.advance n).io = s.io := rfl
@[simp] theorem advance_pinB (s : State) (n : Word) : (s.advance n).pinB = s.pinB := rfl
@[simp] theorem advance_pinD (s : State) (n : Word) : (s.advance n).pinD = s.pinD := rfl
@[simp] theorem advance_prev (s : State) (n : Word) : (s.advance n).prev = s.prev := rfl
@[simp] theorem advance_sram (s : State) (n : Word) : (s.advance n).sram = s.sram := rfl
@[simp] theorem advance_flash (s : State) (n : Word) : (s.advance n).flash = s.flash := rfl
@[simp] theorem advance_sleeping (s : State) (n : Word) : (s.advance n).sleeping = s.sleeping := rfl
@[simp] theorem advance_inhibit (s : State) (n : Word) : (s.advance n).inhibit = s.inhibit := rfl
@[simp] theorem advance_inputs (s : State) (n : Word) : (s.advance n).inputs = s.inputs := rfl

@[simp] theorem setFlags_cfg (s : State) (v : Byte) : (s.setFlags v).cfg = s.cfg := rfl
@[simp] theorem setFlags_regs (s : State) (v : Byte) : (s.setFlags v).regs = s.regs := rfl
@[simp] theorem setFlags_pc (s : State) (v : Byte) : (s.setFlags v).pc = s.pc := rfl
@[simp] theorem setFlags_sreg (s : State) (v : Byte) : (s.setFlags v).sreg = v := rfl
@[simp] theorem setFlags_sp (s : State) (v : Byte) : (s.setFlags v).sp = s.sp := rfl
@[simp] theorem setFlags_io (s : State) (v : Byte) : (s.setFlags v).io = s.io := rfl
@[simp] theorem setFlags_pinB (s : State) (v : Byte) : (s.setFlags v).pinB = s.pinB := rfl
@[simp] theorem setFlags_pinD (s : State) (v : Byte) : (s.setFlags v).pinD = s.pinD := rfl
@[simp] theorem setFlags_prev (s : State) (v : Byte) : (s.setFlags v).prev = s.prev := rfl
@[simp] theorem setFlags_sram (s : State) (v : Byte) : (s.setFlags v).sram = s.sram := rfl
@[simp] theorem setFlags_flash (s : State) (v : Byte) : (s.setFlags v).flash = s.flash := rfl
@[simp] theorem setFlags_sleeping (s : State) (v : Byte) :
    (s.setFlags v).sleeping = s.sleeping := rfl
@[simp] theorem setFlags_inhibit (s : State) (v : Byte) : (s.setFlags v).inhibit = s.inhibit := rfl
@[simp] theorem setFlags_inputs (s : State) (v : Byte) : (s.setFlags v).inputs = s.inputs := rfl

@[simp] theorem writeSreg_cfg (s : State) (v : Byte) : (s.writeSreg v).cfg = s.cfg := rfl
@[simp] theorem writeSreg_regs (s : State) (v : Byte) : (s.writeSreg v).regs = s.regs := rfl
@[simp] theorem writeSreg_pc (s : State) (v : Byte) : (s.writeSreg v).pc = s.pc := rfl
@[simp] theorem writeSreg_sreg (s : State) (v : Byte) : (s.writeSreg v).sreg = v := rfl
@[simp] theorem writeSreg_sp (s : State) (v : Byte) : (s.writeSreg v).sp = s.sp := rfl
@[simp] theorem writeSreg_io (s : State) (v : Byte) : (s.writeSreg v).io = s.io := rfl
@[simp] theorem writeSreg_pinB (s : State) (v : Byte) : (s.writeSreg v).pinB = s.pinB := rfl
@[simp] theorem writeSreg_pinD (s : State) (v : Byte) : (s.writeSreg v).pinD = s.pinD := rfl
@[simp] theorem writeSreg_prev (s : State) (v : Byte) : (s.writeSreg v).prev = s.prev := rfl
@[simp] theorem writeSreg_sram (s : State) (v : Byte) : (s.writeSreg v).sram = s.sram := rfl
@[simp] theorem writeSreg_flash (s : State) (v : Byte) : (s.writeSreg v).flash = s.flash := rfl
@[simp] theorem writeSreg_sleeping (s : State) (v : Byte) :
    (s.writeSreg v).sleeping = s.sleeping := rfl
@[simp] theorem writeSreg_inhibit (s : State) (v : Byte) :
    (s.writeSreg v).inhibit = (s.inhibit || (!flagOf s.sreg .i && flagOf v .i)) := rfl
@[simp] theorem writeSreg_inputs (s : State) (v : Byte) : (s.writeSreg v).inputs = s.inputs := rfl

@[simp] theorem setSp_cfg (s : State) (v : Word) : (s.setSp v).cfg = s.cfg := rfl
@[simp] theorem setSp_regs (s : State) (v : Word) : (s.setSp v).regs = s.regs := rfl
@[simp] theorem setSp_pc (s : State) (v : Word) : (s.setSp v).pc = s.pc := rfl
@[simp] theorem setSp_sreg (s : State) (v : Word) : (s.setSp v).sreg = s.sreg := rfl
@[simp] theorem setSp_sp (s : State) (v : Word) : (s.setSp v).sp = wrapTo s.cfg.spw v := rfl
@[simp] theorem setSp_io (s : State) (v : Word) : (s.setSp v).io = s.io := rfl
@[simp] theorem setSp_pinB (s : State) (v : Word) : (s.setSp v).pinB = s.pinB := rfl
@[simp] theorem setSp_pinD (s : State) (v : Word) : (s.setSp v).pinD = s.pinD := rfl
@[simp] theorem setSp_prev (s : State) (v : Word) : (s.setSp v).prev = s.prev := rfl
@[simp] theorem setSp_sram (s : State) (v : Word) : (s.setSp v).sram = s.sram := rfl
@[simp] theorem setSp_flash (s : State) (v : Word) : (s.setSp v).flash = s.flash := rfl
@[simp] theorem setSp_sleeping (s : State) (v : Word) : (s.setSp v).sleeping = s.sleeping := rfl
@[simp] theorem setSp_inhibit (s : State) (v : Word) : (s.setSp v).inhibit = s.inhibit := rfl
@[simp] theorem setSp_inputs (s : State) (v : Word) : (s.setSp v).inputs = s.inputs := rfl

@[simp] theorem setIo_cfg (s : State) (io : IoFile) : (s.setIo io).cfg = s.cfg := rfl
@[simp] theorem setIo_regs (s : State) (io : IoFile) : (s.setIo io).regs = s.regs := rfl
@[simp] theorem setIo_pc (s : State) (io : IoFile) : (s.setIo io).pc = s.pc := rfl
@[simp] theorem setIo_sreg (s : State) (io : IoFile) : (s.setIo io).sreg = s.sreg := rfl
@[simp] theorem setIo_sp (s : State) (io : IoFile) : (s.setIo io).sp = s.sp := rfl
@[simp] theorem setIo_io (s : State) (io : IoFile) : (s.setIo io).io = io := rfl
@[simp] theorem setIo_pinB (s : State) (io : IoFile) : (s.setIo io).pinB = s.pinB := rfl
@[simp] theorem setIo_pinD (s : State) (io : IoFile) : (s.setIo io).pinD = s.pinD := rfl
@[simp] theorem setIo_prev (s : State) (io : IoFile) : (s.setIo io).prev = s.prev := rfl
@[simp] theorem setIo_sram (s : State) (io : IoFile) : (s.setIo io).sram = s.sram := rfl
@[simp] theorem setIo_flash (s : State) (io : IoFile) : (s.setIo io).flash = s.flash := rfl
@[simp] theorem setIo_sleeping (s : State) (io : IoFile) : (s.setIo io).sleeping = s.sleeping := rfl
@[simp] theorem setIo_inhibit (s : State) (io : IoFile) : (s.setIo io).inhibit = s.inhibit := rfl
@[simp] theorem setIo_inputs (s : State) (io : IoFile) : (s.setIo io).inputs = s.inputs := rfl

@[simp] theorem setSram_cfg (s : State) (a : Word) (v : Byte) : (s.setSram a v).cfg = s.cfg := rfl
@[simp] theorem setSram_regs (s : State) (a : Word) (v : Byte) :
    (s.setSram a v).regs = s.regs := rfl
@[simp] theorem setSram_pc (s : State) (a : Word) (v : Byte) : (s.setSram a v).pc = s.pc := rfl
@[simp] theorem setSram_sreg (s : State) (a : Word) (v : Byte) :
    (s.setSram a v).sreg = s.sreg := rfl
@[simp] theorem setSram_sp (s : State) (a : Word) (v : Byte) : (s.setSram a v).sp = s.sp := rfl
@[simp] theorem setSram_io (s : State) (a : Word) (v : Byte) : (s.setSram a v).io = s.io := rfl
@[simp] theorem setSram_pinB (s : State) (a : Word) (v : Byte) :
    (s.setSram a v).pinB = s.pinB := rfl
@[simp] theorem setSram_pinD (s : State) (a : Word) (v : Byte) :
    (s.setSram a v).pinD = s.pinD := rfl
@[simp] theorem setSram_prev (s : State) (a : Word) (v : Byte) :
    (s.setSram a v).prev = s.prev := rfl
@[simp] theorem setSram_sram (s : State) (a : Word) (v : Byte) :
    (s.setSram a v).sram = Memory.write none s.sram a.toNat v := rfl
@[simp] theorem setSram_flash (s : State) (a : Word) (v : Byte) :
    (s.setSram a v).flash = s.flash := rfl
@[simp] theorem setSram_sleeping (s : State) (a : Word) (v : Byte) :
    (s.setSram a v).sleeping = s.sleeping := rfl
@[simp] theorem setSram_inhibit (s : State) (a : Word) (v : Byte) :
    (s.setSram a v).inhibit = s.inhibit := rfl
@[simp] theorem setSram_inputs (s : State) (a : Word) (v : Byte) :
    (s.setSram a v).inputs = s.inputs := rfl

@[simp] theorem pinsChanged_cfg (s : State) :
    (s.pinsChanged).cfg = s.cfg := by simp only [State.pinsChanged]
@[simp] theorem pinsChanged_regs (s : State) :
    (s.pinsChanged).regs = s.regs := by simp only [State.pinsChanged]
@[simp] theorem pinsChanged_pc (s : State) :
    (s.pinsChanged).pc = s.pc := by simp only [State.pinsChanged]
@[simp] theorem pinsChanged_sreg (s : State) :
    (s.pinsChanged).sreg = s.sreg := by simp only [State.pinsChanged]
@[simp] theorem pinsChanged_sp (s : State) :
    (s.pinsChanged).sp = s.sp := by simp only [State.pinsChanged]
@[simp] theorem pinsChanged_io (s : State) :
    (s.pinsChanged).io = s.io.pinEdges s.prev s.watchedLevels := by simp only [State.pinsChanged]
@[simp] theorem pinsChanged_pinB (s : State) :
    (s.pinsChanged).pinB = s.pinB := by simp only [State.pinsChanged]
@[simp] theorem pinsChanged_pinD (s : State) :
    (s.pinsChanged).pinD = s.pinD := by simp only [State.pinsChanged]
@[simp] theorem pinsChanged_prev (s : State) :
    (s.pinsChanged).prev = s.watchedLevels := by simp only [State.pinsChanged]
@[simp] theorem pinsChanged_sram (s : State) :
    (s.pinsChanged).sram = s.sram := by simp only [State.pinsChanged]
@[simp] theorem pinsChanged_flash (s : State) :
    (s.pinsChanged).flash = s.flash := by simp only [State.pinsChanged]
@[simp] theorem pinsChanged_sleeping (s : State) :
    (s.pinsChanged).sleeping = s.sleeping := by simp only [State.pinsChanged]
@[simp] theorem pinsChanged_inhibit (s : State) :
    (s.pinsChanged).inhibit = s.inhibit := by simp only [State.pinsChanged]
@[simp] theorem pinsChanged_inputs (s : State) :
    (s.pinsChanged).inputs = s.inputs := by simp only [State.pinsChanged]

@[simp] theorem setFlash_cfg (s : State) (k : Nat) (v : Byte) : (s.setFlash k v).cfg = s.cfg := rfl
@[simp] theorem setFlash_regs (s : State) (k : Nat) (v : Byte) :
    (s.setFlash k v).regs = s.regs := rfl
@[simp] theorem setFlash_pc (s : State) (k : Nat) (v : Byte) : (s.setFlash k v).pc = s.pc := rfl
@[simp] theorem setFlash_sreg (s : State) (k : Nat) (v : Byte) :
    (s.setFlash k v).sreg = s.sreg := rfl
@[simp] theorem setFlash_sp (s : State) (k : Nat) (v : Byte) : (s.setFlash k v).sp = s.sp := rfl
@[simp] theorem setFlash_io (s : State) (k : Nat) (v : Byte) : (s.setFlash k v).io = s.io := rfl
@[simp] theorem setFlash_pinB (s : State) (k : Nat) (v : Byte) :
    (s.setFlash k v).pinB = s.pinB := rfl
@[simp] theorem setFlash_pinD (s : State) (k : Nat) (v : Byte) :
    (s.setFlash k v).pinD = s.pinD := rfl
@[simp] theorem setFlash_prev (s : State) (k : Nat) (v : Byte) :
    (s.setFlash k v).prev = s.prev := rfl
@[simp] theorem setFlash_sram (s : State) (k : Nat) (v : Byte) :
    (s.setFlash k v).sram = s.sram := rfl
@[simp] theorem setFlash_flash (s : State) (k : Nat) (v : Byte) :
    (s.setFlash k v).flash = Memory.write (some erasedByte) s.flash k v := rfl
@[simp] theorem setFlash_sleeping (s : State) (k : Nat) (v : Byte) :
    (s.setFlash k v).sleeping = s.sleeping := rfl
@[simp] theorem setFlash_inhibit (s : State) (k : Nat) (v : Byte) :
    (s.setFlash k v).inhibit = s.inhibit := rfl
@[simp] theorem setFlash_inputs (s : State) (k : Nat) (v : Byte) :
    (s.setFlash k v).inputs = s.inputs := rfl

@[simp] theorem storeProgWord_cfg (s : State) (w : Nat) (v : Word) :
    (s.storeProgWord w v).cfg = s.cfg := rfl
@[simp] theorem storeProgWord_regs (s : State) (w : Nat) (v : Word) :
    (s.storeProgWord w v).regs = s.regs := rfl
@[simp] theorem storeProgWord_pc (s : State) (w : Nat) (v : Word) :
    (s.storeProgWord w v).pc = s.pc := rfl
@[simp] theorem storeProgWord_sreg (s : State) (w : Nat) (v : Word) :
    (s.storeProgWord w v).sreg = s.sreg := rfl
@[simp] theorem storeProgWord_sp (s : State) (w : Nat) (v : Word) :
    (s.storeProgWord w v).sp = s.sp := rfl
@[simp] theorem storeProgWord_io (s : State) (w : Nat) (v : Word) :
    (s.storeProgWord w v).io = s.io := rfl
@[simp] theorem storeProgWord_pinB (s : State) (w : Nat) (v : Word) :
    (s.storeProgWord w v).pinB = s.pinB := rfl
@[simp] theorem storeProgWord_pinD (s : State) (w : Nat) (v : Word) :
    (s.storeProgWord w v).pinD = s.pinD := rfl
@[simp] theorem storeProgWord_prev (s : State) (w : Nat) (v : Word) :
    (s.storeProgWord w v).prev = s.prev := rfl
@[simp] theorem storeProgWord_sram (s : State) (w : Nat) (v : Word) :
    (s.storeProgWord w v).sram = s.sram := rfl
@[simp] theorem storeProgWord_flash (s : State) (w : Nat) (v : Word) :
    (s.storeProgWord w v).flash = ((s.setFlash (2 * w) (loByte v)).setFlash (2 * w + 1) (hiByte v)).flash := rfl
@[simp] theorem storeProgWord_sleeping (s : State) (w : Nat) (v : Word) :
    (s.storeProgWord w v).sleeping = s.sleeping := rfl
@[simp] theorem storeProgWord_inhibit (s : State) (w : Nat) (v : Word) :
    (s.storeProgWord w v).inhibit = s.inhibit := rfl
@[simp] theorem storeProgWord_inputs (s : State) (w : Nat) (v : Word) :
    (s.storeProgWord w v).inputs = s.inputs := rfl

@[simp] theorem beginInstr_cfg (s : State) : (s.beginInstr).cfg = s.cfg := rfl
@[simp] theorem beginInstr_regs (s : State) : (s.beginInstr).regs = s.regs := rfl
@[simp] theorem beginInstr_pc (s : State) : (s.beginInstr).pc = s.pc := rfl
@[simp] theorem beginInstr_sreg (s : State) : (s.beginInstr).sreg = s.sreg := rfl
@[simp] theorem beginInstr_sp (s : State) : (s.beginInstr).sp = s.sp := rfl
@[simp] theorem beginInstr_io (s : State) : (s.beginInstr).io = s.io := rfl
@[simp] theorem beginInstr_pinB (s : State) : (s.beginInstr).pinB = s.pinB := rfl
@[simp] theorem beginInstr_pinD (s : State) : (s.beginInstr).pinD = s.pinD := rfl
@[simp] theorem beginInstr_prev (s : State) : (s.beginInstr).prev = s.prev := rfl
@[simp] theorem beginInstr_sram (s : State) : (s.beginInstr).sram = s.sram := rfl
@[simp] theorem beginInstr_flash (s : State) : (s.beginInstr).flash = s.flash := rfl
@[simp] theorem beginInstr_sleeping (s : State) : (s.beginInstr).sleeping = s.sleeping := rfl
@[simp] theorem beginInstr_inhibit (s : State) : (s.beginInstr).inhibit = false := rfl
@[simp] theorem beginInstr_inputs (s : State) : (s.beginInstr).inputs = s.inputs := rfl

/-! ## Views an update leaves alone -/

@[simp] theorem setReg_flag (s : State) (i : Reg) (v : Byte) (f : Flag) :
    (s.setReg i v).flag f = s.flag f := rfl
@[simp] theorem setReg_sramByte (s : State) (i : Reg) (v : Byte) (b : Nat) :
    (s.setReg i v).sramByte b = s.sramByte b := rfl
@[simp] theorem setReg_flashByte (s : State) (i : Reg) (v : Byte) (b : Nat) :
    (s.setReg i v).flashByte b = s.flashByte b := rfl
@[simp] theorem setReg_progWord (s : State) (i : Reg) (v : Byte) (b : Nat) :
    (s.setReg i v).progWord b = s.progWord b := rfl
@[simp] theorem setReg_ioRegAt (s : State) (i : Reg) (v : Byte) (b : IoAddr) :
    (s.setReg i v).ioRegAt b = s.ioRegAt b := rfl
@[simp] theorem setReg_inSram (s : State) (i : Reg) (v : Byte) (b : Word) :
    (s.setReg i v).inSram b = s.inSram b := rfl

@[simp] theorem setPair_flag (s : State) (i : Reg) (w : Word) (f : Flag) :
    (s.setPair i w).flag f = s.flag f := rfl
@[simp] theorem setPair_sramByte (s : State) (i : Reg) (w : Word) (b : Nat) :
    (s.setPair i w).sramByte b = s.sramByte b := rfl
@[simp] theorem setPair_flashByte (s : State) (i : Reg) (w : Word) (b : Nat) :
    (s.setPair i w).flashByte b = s.flashByte b := rfl
@[simp] theorem setPair_progWord (s : State) (i : Reg) (w : Word) (b : Nat) :
    (s.setPair i w).progWord b = s.progWord b := rfl
@[simp] theorem setPair_ioRegAt (s : State) (i : Reg) (w : Word) (b : IoAddr) :
    (s.setPair i w).ioRegAt b = s.ioRegAt b := rfl
@[simp] theorem setPair_inSram (s : State) (i : Reg) (w : Word) (b : Word) :
    (s.setPair i w).inSram b = s.inSram b := rfl

@[simp] theorem setPtr_flag (s : State) (p : Ptr) (w : Word) (f : Flag) :
    (s.setPtr p w).flag f = s.flag f := rfl
@[simp] theorem setPtr_sramByte (s : State) (p : Ptr) (w : Word) (b : Nat) :
    (s.setPtr p w).sramByte b = s.sramByte b := rfl
@[simp] theorem setPtr_flashByte (s : State) (p : Ptr) (w : Word) (b : Nat) :
    (s.setPtr p w).flashByte b = s.flashByte b := rfl
@[simp] theorem setPtr_progWord (s : State) (p : Ptr) (w : Word) (b : Nat) :
    (s.setPtr p w).progWord b = s.progWord b := rfl
@[simp] theorem setPtr_ioRegAt (s : State) (p : Ptr) (w : Word) (b : IoAddr) :
    (s.setPtr p w).ioRegAt b = s.ioRegAt b := rfl
@[simp] theorem setPtr_inSram (s : State) (p : Ptr) (w : Word) (b : Word) :
    (s.setPtr p w).inSram b = s.inSram b := rfl

@[simp] theorem setPc_reg (s : State) (t : Word) (j : Reg) : (s.setPc t).reg j = s.reg j := rfl
@[simp] theorem setPc_pair (s : State) (t : Word) (j : Reg) : (s.setPc t).pair j = s.pair j := rfl
@[simp] theorem setPc_ptr (s : State) (t : Word) (q : Ptr) : (s.setPc t).ptr q = s.ptr q := rfl
@[simp] theorem setPc_flag (s : State) (t : Word) (f : Flag) : (s.setPc t).flag f = s.flag f := rfl
@[simp] theorem setPc_sramByte (s : State) (t : Word) (b : Nat) :
    (s.setPc t).sramByte b = s.sramByte b := rfl
@[simp] theorem setPc_flashByte (s : State) (t : Word) (b : Nat) :
    (s.setPc t).flashByte b = s.flashByte b := rfl
@[simp] theorem setPc_progWord (s : State) (t : Word) (b : Nat) :
    (s.setPc t).progWord b = s.progWord b := rfl
@[simp] theorem setPc_ioRegAt (s : State) (t : Word) (b : IoAddr) :
    (s.setPc t).ioRegAt b = s.ioRegAt b := rfl
@[simp] theorem setPc_inSram (s : State) (t : Word) (b : Word) :
    (s.setPc t).inSram b = s.inSram b := rfl

@[simp] theorem advance_reg (s : State) (n : Word) (j : Reg) : (s.advance n).reg j = s.reg j := rfl
@[simp] theorem advance_pair (s : State) (n : Word) (j : Reg) :
    (s.advance n).pair j = s.pair j := rfl
@[simp] theorem advance_ptr (s : State) (n : Word) (q : Ptr) : (s.advance n).ptr q = s.ptr q := rfl
@[simp] theorem advance_flag (s : State) (n : Word) (f : Flag) :
    (s.advance n).flag f = s.flag f := rfl
@[simp] theorem advance_sramByte (s : State) (n : Word) (b : Nat) :
    (s.advance n).sramByte b = s.sramByte b := rfl
@[simp] theorem advance_flashByte (s : State) (n : Word) (b : Nat) :
    (s.advance n).flashByte b = s.flashByte b := rfl
@[simp] theorem advance_progWord (s : State) (n : Word) (b : Nat) :
    (s.advance n).progWord b = s.progWord b := rfl
@[simp] theorem advance_ioRegAt (s : State) (n : Word) (b : IoAddr) :
    (s.advance n).ioRegAt b = s.ioRegAt b := rfl
@[simp] theorem advance_inSram (s : State) (n : Word) (b : Word) :
    (s.advance n).inSram b = s.inSram b := rfl

@[simp] theorem setFlags_reg (s : State) (v : Byte) (j : Reg) :
    (s.setFlags v).reg j = s.reg j := rfl
@[simp] theorem setFlags_pair (s : State) (v : Byte) (j : Reg) :
    (s.setFlags v).pair j = s.pair j := rfl
@[simp] theorem setFlags_ptr (s : State) (v : Byte) (q : Ptr) :
    (s.setFlags v).ptr q = s.ptr q := rfl
@[simp] theorem setFlags_sramByte (s : State) (v : Byte) (b : Nat) :
    (s.setFlags v).sramByte b = s.sramByte b := rfl
@[simp] theorem setFlags_flashByte (s : State) (v : Byte) (b : Nat) :
    (s.setFlags v).flashByte b = s.flashByte b := rfl
@[simp] theorem setFlags_progWord (s : State) (v : Byte) (b : Nat) :
    (s.setFlags v).progWord b = s.progWord b := rfl
@[simp] theorem setFlags_ioRegAt (s : State) (v : Byte) (b : IoAddr) :
    (s.setFlags v).ioRegAt b = s.ioRegAt b := rfl
@[simp] theorem setFlags_inSram (s : State) (v : Byte) (b : Word) :
    (s.setFlags v).inSram b = s.inSram b := rfl

@[simp] theorem writeSreg_reg (s : State) (v : Byte) (j : Reg) :
    (s.writeSreg v).reg j = s.reg j := rfl
@[simp] theorem writeSreg_pair (s : State) (v : Byte) (j : Reg) :
    (s.writeSreg v).pair j = s.pair j := rfl
@[simp] theorem writeSreg_ptr (s : State) (v : Byte) (q : Ptr) :
    (s.writeSreg v).ptr q = s.ptr q := rfl
@[simp] theorem writeSreg_sramByte (s : State) (v : Byte) (b : Nat) :
    (s.writeSreg v).sramByte b = s.sramByte b := rfl
@[simp] theorem writeSreg_flashByte (s : State) (v : Byte) (b : Nat) :
    (s.writeSreg v).flashByte b = s.flashByte b := rfl
@[simp] theorem writeSreg_progWord (s : State) (v : Byte) (b : Nat) :
    (s.writeSreg v).progWord b = s.progWord b := rfl
@[simp] theorem writeSreg_ioRegAt (s : State) (v : Byte) (b : IoAddr) :
    (s.writeSreg v).ioRegAt b = s.ioRegAt b := rfl
@[simp] theorem writeSreg_inSram (s : State) (v : Byte) (b : Word) :
    (s.writeSreg v).inSram b = s.inSram b := rfl

@[simp] theorem setSp_reg (s : State) (v : Word) (j : Reg) : (s.setSp v).reg j = s.reg j := rfl
@[simp] theorem setSp_pair (s : State) (v : Word) (j : Reg) : (s.setSp v).pair j = s.pair j := rfl
@[simp] theorem setSp_ptr (s : State) (v : Word) (q : Ptr) : (s.setSp v).ptr q = s.ptr q := rfl
@[simp] theorem setSp_flag (s : State) (v : Word) (f : Flag) : (s.setSp v).flag f = s.flag f := rfl
@[simp] theorem setSp_sramByte (s : State) (v : Word) (b : Nat) :
    (s.setSp v).sramByte b = s.sramByte b := rfl
@[simp] theorem setSp_flashByte (s : State) (v : Word) (b : Nat) :
    (s.setSp v).flashByte b = s.flashByte b := rfl
@[simp] theorem setSp_progWord (s : State) (v : Word) (b : Nat) :
    (s.setSp v).progWord b = s.progWord b := rfl
@[simp] theorem setSp_ioRegAt (s : State) (v : Word) (b : IoAddr) :
    (s.setSp v).ioRegAt b = s.ioRegAt b := rfl
@[simp] theorem setSp_inSram (s : State) (v : Word) (b : Word) :
    (s.setSp v).inSram b = s.inSram b := rfl

@[simp] theorem setIo_reg (s : State) (io : IoFile) (j : Reg) : (s.setIo io).reg j = s.reg j := rfl
@[simp] theorem setIo_pair (s : State) (io : IoFile) (j : Reg) :
    (s.setIo io).pair j = s.pair j := rfl
@[simp] theorem setIo_ptr (s : State) (io : IoFile) (q : Ptr) : (s.setIo io).ptr q = s.ptr q := rfl
@[simp] theorem setIo_flag (s : State) (io : IoFile) (f : Flag) :
    (s.setIo io).flag f = s.flag f := rfl
@[simp] theorem setIo_sramByte (s : State) (io : IoFile) (b : Nat) :
    (s.setIo io).sramByte b = s.sramByte b := rfl
@[simp] theorem setIo_flashByte (s : State) (io : IoFile) (b : Nat) :
    (s.setIo io).flashByte b = s.flashByte b := rfl
@[simp] theorem setIo_progWord (s : State) (io : IoFile) (b : Nat) :
    (s.setIo io).progWord b = s.progWord b := rfl
@[simp] theorem setIo_ioRegAt (s : State) (io : IoFile) (b : IoAddr) :
    (s.setIo io).ioRegAt b = s.ioRegAt b := rfl
@[simp] theorem setIo_inSram (s : State) (io : IoFile) (b : Word) :
    (s.setIo io).inSram b = s.inSram b := rfl

@[simp] theorem setSram_reg (s : State) (a : Word) (v : Byte) (j : Reg) :
    (s.setSram a v).reg j = s.reg j := rfl
@[simp] theorem setSram_pair (s : State) (a : Word) (v : Byte) (j : Reg) :
    (s.setSram a v).pair j = s.pair j := rfl
@[simp] theorem setSram_ptr (s : State) (a : Word) (v : Byte) (q : Ptr) :
    (s.setSram a v).ptr q = s.ptr q := rfl
@[simp] theorem setSram_flag (s : State) (a : Word) (v : Byte) (f : Flag) :
    (s.setSram a v).flag f = s.flag f := rfl
@[simp] theorem setSram_flashByte (s : State) (a : Word) (v : Byte) (b : Nat) :
    (s.setSram a v).flashByte b = s.flashByte b := rfl
@[simp] theorem setSram_progWord (s : State) (a : Word) (v : Byte) (b : Nat) :
    (s.setSram a v).progWord b = s.progWord b := rfl
@[simp] theorem setSram_ioRegAt (s : State) (a : Word) (v : Byte) (b : IoAddr) :
    (s.setSram a v).ioRegAt b = s.ioRegAt b := rfl
@[simp] theorem setSram_inSram (s : State) (a : Word) (v : Byte) (b : Word) :
    (s.setSram a v).inSram b = s.inSram b := rfl

@[simp] theorem pinsChanged_reg (s : State) (j : Reg) :
    (s.pinsChanged).reg j = s.reg j := by simp only [State.reg, pinsChanged_regs]
@[simp] theorem pinsChanged_pair (s : State) (j : Reg) :
    (s.pinsChanged).pair j = s.pair j := by simp only [State.pair, pinsChanged_reg]
@[simp] theorem pinsChanged_ptr (s : State) (q : Ptr) :
    (s.pinsChanged).ptr q = s.ptr q := by simp only [State.ptr, pinsChanged_pair]
@[simp] theorem pinsChanged_flag (s : State) (f : Flag) :
    (s.pinsChanged).flag f = s.flag f := by simp only [State.flag, pinsChanged_sreg]
@[simp] theorem pinsChanged_sramByte (s : State) (b : Nat) :
    (s.pinsChanged).sramByte b = s.sramByte b := by simp only [State.sramByte, pinsChanged_sram]
@[simp] theorem pinsChanged_flashByte (s : State) (b : Nat) :
    (s.pinsChanged).flashByte b = s.flashByte b := by simp only [State.flashByte, pinsChanged_flash]
@[simp] theorem pinsChanged_progWord (s : State) (b : Nat) :
    (s.pinsChanged).progWord b = s.progWord b := by simp only [State.progWord, pinsChanged_flashByte]
@[simp] theorem pinsChanged_ioRegAt (s : State) (b : IoAddr) :
    (s.pinsChanged).ioRegAt b = s.ioRegAt b := by simp only [State.ioRegAt, pinsChanged_cfg]
@[simp] theorem pinsChanged_inSram (s : State) (b : Word) :
    (s.pinsChanged).inSram b = s.inSram b := by simp only [State.inSram, pinsChanged_cfg]

@[simp] theorem setFlash_reg (s : State) (k : Nat) (v : Byte) (j : Reg) :
    (s.setFlash k v).reg j = s.reg j := rfl
@[simp] theorem setFlash_pair (s : State) (k : Nat) (v : Byte) (j : Reg) :
    (s.setFlash k v).pair j = s.pair j := rfl
@[simp] theorem setFlash_ptr (s : State) (k : Nat) (v : Byte) (q : Ptr) :
    (s.setFlash k v).ptr q = s.ptr q := rfl
@[simp] theorem setFlash_flag (s : State) (k : Nat) (v : Byte) (f : Flag) :
    (s.setFlash k v).flag f = s.flag f := rfl
@[simp] theorem setFlash_sramByte (s : State) (k : Nat) (v : Byte) (b : Nat) :
    (s.setFlash k v).sramByte b = s.sramByte b := rfl
@[simp] theorem setFlash_ioRegAt (s : State) (k : Nat) (v : Byte) (b : IoAddr) :
    (s.setFlash k v).ioRegAt b = s.ioRegAt b := rfl
@[simp] theorem setFlash_inSram (s : State) (k : Nat) (v : Byte) (b : Word) :
    (s.setFlash k v).inSram b = s.inSram b := rfl

@[simp] theorem storeProgWord_reg (s : State) (w : Nat) (v : Word) (j : Reg) :
    (s.storeProgWord w v).reg j = s.reg j := rfl
@[simp] theorem storeProgWord_pair (s : State) (w : Nat) (v : Word) (j : Reg) :
    (s.storeProgWord w v).pair j = s.pair j := rfl
@[simp] theorem storeProgWord_ptr (s : State) (w : Nat) (v : Word) (q : Ptr) :
    (s.storeProgWord w v).ptr q = s.ptr q := rfl
@[simp] theorem storeProgWord_flag (s : State) (w : Nat) (v : Word) (f : Flag) :
    (s.storeProgWord w v).flag f = s.flag f := rfl
@[simp] theorem storeProgWord_sramByte (s : State) (w : Nat) (v : Word) (b : Nat) :
    (s.storeProgWord w v).sramByte b = s.sramByte b := rfl
@[simp] theorem storeProgWord_ioRegAt (s : State) (w : Nat) (v : Word) (b : IoAddr) :
    (s.storeProgWord w v).ioRegAt b = s.ioRegAt b := rfl
@[simp] theorem storeProgWord_inSram (s : State) (w : Nat) (v : Word) (b : Word) :
    (s.storeProgWord w v).inSram b = s.inSram b := rfl

@[simp] theorem beginInstr_reg (s : State) (j : Reg) : (s.beginInstr).reg j = s.reg j := rfl
@[simp] theorem beginInstr_pair (s : State) (j : Reg) : (s.beginInstr).pair j = s.pair j := rfl
@[simp] theorem beginInstr_ptr (s : State) (q : Ptr) : (s.beginInstr).ptr q = s.ptr q := rfl
@[simp] theorem beginInstr_flag (s : State) (f : Flag) : (s.beginInstr).flag f = s.flag f := rfl
@[simp] theorem beginInstr_sramByte (s : State) (b : Nat) :
    (s.beginInstr).sramByte b = s.sramByte b := rfl
@[simp] theorem beginInstr_flashByte (s : State) (b : Nat) :
    (s.beginInstr).flashByte b = s.flashByte b := rfl
@[simp] theorem beginInstr_progWord (s : State) (b : Nat) :
    (s.beginInstr).progWord b = s.progWord b := rfl
@[simp] theorem beginInstr_ioRegAt (s : State) (b : IoAddr) :
    (s.beginInstr).ioRegAt b = s.ioRegAt b := rfl
@[simp] theorem beginInstr_inSram (s : State) (b : Word) :
    (s.beginInstr).inSram b = s.inSram b := rfl

/-! ## Registers, PC, SREG, SP -/

/-- A read after a write of a register: the value written there, every other register as before (10_state.md R20). -/
@[simp] theorem setReg_reg (s : State) (i : Reg) (v : Byte) (j : Reg) :
    (s.setReg i v).reg j = if j = i then v else s.reg j := by
  simp [State.reg, State.setReg, Vector.getElem_set, Fin.ext_iff, eq_comm]

theorem setReg_reg_self (s : State) (i : Reg) (v : Byte) : (s.setReg i v).reg i = v := by simp

theorem setReg_reg_ne (s : State) {i j : Reg} (v : Byte) (h : j ≠ i) : (s.setReg i v).reg j = s.reg j := by
  simp [h]

/-- The registers of a written pair (10_state.md R21). -/
@[simp] theorem setPair_reg (s : State) (i : Reg) (w : Word) (j : Reg) :
    (s.setPair i w).reg j = if j = pairHigh i then hiByte w else if j = i then loByte w else s.reg j := by
  simp [State.setPair]

@[simp] theorem setPtr_reg (s : State) (p : Ptr) (w : Word) (j : Reg) :
    (s.setPtr p w).reg j =
      if j = pairHigh p.low then hiByte w else if j = p.low then loByte w else s.reg j := by
  simp [State.setPtr]

/-- Two states with the same registers read alike. -/
theorem reg_congr {s t : State} (h : s.regs = t.regs) (i : Reg) : s.reg i = t.reg i := by
  simp [State.reg, h]

@[simp] theorem setFlags_flag (s : State) (v : Byte) (f : Flag) : (s.setFlags v).flag f = flagOf v f := rfl

@[simp] theorem writeSreg_flag (s : State) (v : Byte) (f : Flag) : (s.writeSreg v).flag f = flagOf v f := rfl

@[simp] theorem setPc_pcPlus (s : State) (t n : Word) :
    (s.setPc t).pcPlus n = wrapTo s.cfg.pcw (wrapTo s.cfg.pcw t + n) := rfl

end Sys2Proof.Machine
end

