-- ==== Sys2Proof/Laws/Devices.lean ====
section
/-! SUPPORT. The devices: bits of a port's levels, and what the environment's events leave alone. -/

namespace Sys2Proof.Machine

@[simp] theorem byteBit_zero (n : BitNo) : byteBit 0 n = false := by simp [byteBit]

@[simp] theorem byteBit_byteOfBits (f : BitNo → Bool) (n : BitNo) : byteBit (byteOfBits f) n = f n := by
  match n with
  | 0 => simp [byteOfBits]
  | 1 => simp [byteOfBits]
  | 2 => simp [byteOfBits]
  | 3 => simp [byteOfBits]
  | 4 => simp [byteOfBits]
  | 5 => simp [byteOfBits]
  | 6 => simp [byteOfBits]
  | 7 => simp [byteOfBits]

/-- A bit of a port's levels is the level of that pin (60_exceptions.md R340). -/
@[simp] theorem byteBit_portLevels (ddr port : Byte) (p : PinDrive) (n : BitNo) :
    byteBit (portLevels ddr port p) n = levelBit ddr port p n := by simp [portLevels]

/-! ## The environment's events -/

@[simp] theorem mapPins_frame (s : State) (x : Port) (f : PinDrive → PinDrive) :
    (s.mapPins x f).cfg = s.cfg ∧ (s.mapPins x f).regs = s.regs ∧ (s.mapPins x f).pc = s.pc ∧
      (s.mapPins x f).sreg = s.sreg ∧ (s.mapPins x f).sp = s.sp ∧ (s.mapPins x f).sram = s.sram ∧
      (s.mapPins x f).flash = s.flash ∧ (s.mapPins x f).sleeping = s.sleeping ∧
      (s.mapPins x f).inhibit = s.inhibit ∧ (s.mapPins x f).inputs = s.inputs := by
  cases x <;> simp [State.mapPins]

/-- No event changes the parameters or program memory. -/
theorem event_frame (s : State) (e : EnvEvent) : (s.event e).cfg = s.cfg ∧ (s.event e).flash = s.flash := by
  cases e with
  | drive x n v => simp [State.event]
  | tick0 => simp only [State.event]; split <;> simp
  | tick1 => simp only [State.event]; split <;> simp
  | flag f => cases f <;> simp [State.event]
  | float x n v => simp [State.event]
  | reset => simp [State.event, State.chipReset, State.resetOf]

theorem eventList_frame (s : State) (es : List EnvEvent) :
    (s.eventList es).cfg = s.cfg ∧ (s.eventList es).flash = s.flash := by
  induction es generalizing s with
  | nil => exact ⟨rfl, rfl⟩
  | cons e es ih =>
    obtain ⟨h1, h2⟩ := ih (s.event e)
    obtain ⟨h3, h4⟩ := event_frame s e
    exact ⟨h1.trans h3, h2.trans h4⟩

theorem takeInputs_frame (s : State) : s.takeInputs.cfg = s.cfg ∧ s.takeInputs.flash = s.flash := by
  unfold State.takeInputs
  split
  · exact ⟨rfl, rfl⟩
  · exact eventList_frame _ _

/-- No event changes the rest of the schedule. -/
theorem event_inputs (s : State) (e : EnvEvent) : (s.event e).inputs = s.inputs := by
  cases e with
  | drive x n v => simp [State.event]
  | tick0 => simp only [State.event]; split <;> simp
  | tick1 => simp only [State.event]; split <;> simp
  | flag f => cases f <;> simp [State.event]
  | float x n v => simp [State.event]
  | reset => simp [State.event, State.chipReset]

theorem eventList_inputs (s : State) (es : List EnvEvent) : (s.eventList es).inputs = s.inputs := by
  induction es generalizing s with
  | nil => rfl
  | cons e es ih => exact (ih _).trans (event_inputs s e)

theorem takeInputs_of_nil {s : State} (h : s.inputs = []) : s.takeInputs = s := by
  simp [State.takeInputs, h]

end Sys2Proof.Machine
end

