-- ==== Sys2Proof/Laws/Memory.lean ====
section
/-! SUPPORT. The laws of a memory: what a byte reads as after a write, and that every operation keeps the
canonical form. -/

namespace Sys2Proof.Machine

theorem Memory.above_mono {lo lo' : Nat} (h : lo' ≤ lo) {m : Memory} (hm : Memory.above lo m = true) :
    Memory.above lo' m = true := by
  cases m with
  | nil => rfl
  | cons c m =>
    simp only [Memory.above, Bool.and_eq_true, decide_eq_true_eq] at hm ⊢
    exact ⟨by omega, hm.2⟩

theorem Memory.rising_of_above {lo : Nat} {m : Memory} (hm : Memory.above lo m = true) :
    Memory.rising m = true := by
  cases m with
  | nil => rfl
  | cons c m =>
    simp only [Memory.above, Bool.and_eq_true] at hm
    exact hm.2

theorem Memory.lookup_of_above {lo : Nat} {m : Memory} (hm : Memory.above lo m = true) {a : Nat} (ha : a ≤ lo) :
    Memory.lookup m a = none := by
  induction m generalizing lo with
  | nil => rfl
  | cons c m ih =>
    simp only [Memory.above, Bool.and_eq_true, decide_eq_true_eq] at hm
    simp only [Memory.lookup]
    rw [if_neg (by omega), ih hm.2 (by omega)]

/-! ## Read after write -/

theorem Memory.lookup_insert (m : Memory) (a b : Nat) (v : Byte) :
    Memory.lookup (Memory.insert m a v) b = if b = a then some v else Memory.lookup m b := by
  induction m with
  | nil => simp [Memory.insert, Memory.lookup, eq_comm]
  | cons c m ih =>
    obtain ⟨k, w⟩ := c
    simp only [Memory.insert]
    split
    · by_cases h : b = a
      · simp [Memory.lookup, h]
      · simp [Memory.lookup, h, Ne.symm h]
    · split
      · subst_vars
        by_cases h : b = k
        · simp [Memory.lookup, h]
        · simp [Memory.lookup, h, Ne.symm h]
      · by_cases h : b = a
        · subst h
          simp [Memory.lookup, ih]
          intro hk
          omega
        · simp [Memory.lookup, ih, h]

theorem Memory.lookup_erase (m : Memory) (a b : Nat) (hm : Memory.rising m = true) :
    Memory.lookup (Memory.erase m a) b = if b = a then none else Memory.lookup m b := by
  induction m with
  | nil => simp [Memory.erase, Memory.lookup]
  | cons c m ih =>
    obtain ⟨k, w⟩ := c
    simp only [Memory.rising] at hm
    simp only [Memory.erase]
    split
    · subst_vars
      by_cases h : b = k
      · subst h
        simp [Memory.lookup_of_above hm (Nat.le_refl b)]
      · simp [Memory.lookup, h, Ne.symm h]
    · by_cases h : b = a
      · subst h
        simp [Memory.lookup, ih (Memory.rising_of_above hm)]
        omega
      · simp [Memory.lookup, ih (Memory.rising_of_above hm), h]

/-- A byte written reads as the value written, every other byte as before. -/
theorem Memory.read_write (u : Option Byte) (m : Memory) (a b : Nat) (v : Byte) (hm : Memory.rising m = true) :
    Memory.read u (Memory.write u m a v) b = if b = a then some v else Memory.read u m b := by
  unfold Memory.read Memory.write
  by_cases h : u = some v
  · rw [if_pos h, Memory.lookup_erase m a b hm]
    by_cases hb : b = a <;> simp [hb, h]
  · rw [if_neg h, Memory.lookup_insert]
    by_cases hb : b = a <;> simp [hb]

/-- With no value for unlisted bytes no order of the cells is needed: a write lists the byte. -/
theorem Memory.read_write_none (m : Memory) (a b : Nat) (v : Byte) :
    Memory.read none (Memory.write none m a v) b = if b = a then some v else Memory.read none m b := by
  unfold Memory.read Memory.write
  rw [if_neg (by simp), Memory.lookup_insert]
  by_cases hb : b = a <;> simp [hb]

/-! ## The canonical form is kept -/

theorem Memory.above_insert {lo : Nat} {m : Memory} (hm : Memory.above lo m = true) {a : Nat} (ha : lo < a)
    (v : Byte) : Memory.above lo (Memory.insert m a v) = true := by
  induction m generalizing lo with
  | nil => simp [Memory.insert, Memory.above, ha]
  | cons c m ih =>
    obtain ⟨k, w⟩ := c
    simp only [Memory.above, Bool.and_eq_true, decide_eq_true_eq] at hm
    simp only [Memory.insert]
    split
    · simp [Memory.above, ha, hm.2]; omega
    · split
      · subst_vars; simp [Memory.above, ha, hm.2]
      · simp only [Memory.above, Bool.and_eq_true, decide_eq_true_eq]
        exact ⟨hm.1, ih hm.2 (by omega)⟩

theorem Memory.rising_insert {m : Memory} (hm : Memory.rising m = true) (a : Nat) (v : Byte) :
    Memory.rising (Memory.insert m a v) = true := by
  cases m with
  | nil => rfl
  | cons c m =>
    obtain ⟨k, w⟩ := c
    simp only [Memory.rising] at hm
    simp only [Memory.insert]
    split
    · rename_i h; simp [Memory.rising, Memory.above, h, hm]
    · split
      · subst_vars; simpa [Memory.rising] using hm
      · simp only [Memory.rising]
        exact Memory.above_insert hm (by omega) v

theorem Memory.above_erase {lo : Nat} {m : Memory} (hm : Memory.above lo m = true) (a : Nat) :
    Memory.above lo (Memory.erase m a) = true := by
  induction m generalizing lo with
  | nil => rfl
  | cons c m ih =>
    obtain ⟨k, w⟩ := c
    simp only [Memory.above, Bool.and_eq_true, decide_eq_true_eq] at hm
    simp only [Memory.erase]
    split
    · exact Memory.above_mono (by omega) hm.2
    · simp [Memory.above, hm.1, ih hm.2]

theorem Memory.rising_erase {m : Memory} (hm : Memory.rising m = true) (a : Nat) :
    Memory.rising (Memory.erase m a) = true := by
  cases m with
  | nil => rfl
  | cons c m =>
    obtain ⟨k, w⟩ := c
    simp only [Memory.rising] at hm
    simp only [Memory.erase]
    split
    · exact Memory.rising_of_above hm
    · exact Memory.above_erase hm a

theorem Memory.mem_insert {m : Memory} {a : Nat} {v : Byte} {c : Host.Cell} (h : c ∈ Memory.insert m a v) :
    c = (a, v) ∨ c ∈ m := by
  induction m with
  | nil => simpa [Memory.insert] using h
  | cons d m ih =>
    obtain ⟨k, w⟩ := d
    simp only [Memory.insert] at h
    split at h
    · simpa using h
    · split at h
      · rcases List.mem_cons.mp h with h | h
        · exact .inl h
        · exact .inr (List.mem_cons_of_mem _ h)
      · rcases List.mem_cons.mp h with h | h
        · exact .inr (h ▸ List.mem_cons_self)
        · rcases ih h with h | h
          · exact .inl h
          · exact .inr (List.mem_cons_of_mem _ h)

theorem Memory.mem_erase {m : Memory} {a : Nat} {c : Host.Cell} (h : c ∈ Memory.erase m a) : c ∈ m := by
  induction m with
  | nil => simp [Memory.erase] at h
  | cons d m ih =>
    obtain ⟨k, w⟩ := d
    simp only [Memory.erase] at h
    split at h
    · exact List.mem_cons_of_mem _ h
    · rcases List.mem_cons.mp h with h | h
      · exact h ▸ List.mem_cons_self
      · exact List.mem_cons_of_mem _ (ih h)

theorem Memory.mem_write {u : Option Byte} {m : Memory} {a : Nat} {v : Byte} {c : Host.Cell}
    (h : c ∈ Memory.write u m a v) : c = (a, v) ∨ c ∈ m := by
  simp only [Memory.write] at h
  split at h
  · exact .inr (Memory.mem_erase h)
  · exact Memory.mem_insert h

/-- A write keeps the canonical form. -/
theorem Memory.wf_write {u : Option Byte} {m : Memory} (hm : Memory.wf u m = true) (a : Nat) (v : Byte) :
    Memory.wf u (Memory.write u m a v) = true := by
  simp only [Memory.wf, Bool.and_eq_true, List.all_eq_true, bne_iff_ne, ne_eq] at hm ⊢
  refine ⟨?_, fun c hc => ?_⟩
  · simp only [Memory.write]
    split
    · exact Memory.rising_erase hm.1 a
    · exact Memory.rising_insert hm.1 a v
  · by_cases h : u = some v
    · simp only [Memory.write, if_pos h] at hc
      exact hm.2 c (Memory.mem_erase hc)
    · simp only [Memory.write, if_neg h] at hc
      rcases Memory.mem_insert hc with hc | hc
      · subst hc; exact h
      · exact hm.2 c hc

/-- A write to an address in a range keeps the listed addresses in it. -/
theorem Memory.within_write {u : Option Byte} {m : Memory} {lo hi : Nat} (hm : Memory.within lo hi m = true)
    {a : Nat} (ha : lo ≤ a ∧ a ≤ hi) (v : Byte) : Memory.within lo hi (Memory.write u m a v) = true := by
  simp only [Memory.within, List.all_eq_true, Bool.and_eq_true, decide_eq_true_eq] at hm ⊢
  intro c hc
  rcases Memory.mem_write hc with h | h
  · subst h; exact ha
  · exact hm c h

end Sys2Proof.Machine
end

