-- ==== Sys2Proof/Laws/Ops.lean ====
section
/-! SUPPORT. For each shared operation, one lemma that says everything it can do, and the canonical form of the
memories under every operation that writes one. -/

namespace Sys2Proof.Machine

/-! ## Outcomes -/

@[simp] theorem outcome_ok (s : State) : outcome (.ok s) = .next s := rfl
@[simp] theorem outcome_error (f : Fault) : outcome (.error f) = .fault f := rfl

theorem outcome_next {e : Except Fault State} {t : State} : outcome e = .next t ↔ e = .ok t := by
  cases e <;> simp [outcome]

theorem outcome_fault {e : Except Fault State} {f : Fault} : outcome e = .fault f ↔ e = .error f := by
  cases e <;> simp [outcome]

theorem outcome_ne_refused (e : Except Fault State) (r : Refusal) : outcome e ≠ .refused r := by
  cases e <;> simp [outcome]

/-- A sequence succeeds if its first part does and the rest does with what it gives. -/
theorem bind_ok {α β : Type} {e : Except Fault α} {f : α → Except Fault β} {b : β} :
    (e >>= f) = .ok b ↔ ∃ a, e = .ok a ∧ f a = .ok b := by
  cases e <;> simp [bind, Except.bind]

theorem bind_error {α β : Type} {e : Except Fault α} {f : α → Except Fault β} {x : Fault} :
    (e >>= f) = .error x ↔ e = .error x ∨ ∃ a, e = .ok a ∧ f a = .error x := by
  cases e <;> simp [bind, Except.bind]

theorem pure_ok {α : Type} {a b : α} : (pure a : Except Fault α) = .ok b ↔ a = b := by
  simp [pure, Except.pure]

/-! ## I/O registers -/

/-- A write of an I/O register changes no working register, no memory, not the PC, not the parameters. -/
theorem ioRegWrite_frame {s t : State} {v : Byte} {r : IoReg} (h : s.ioRegWrite v r = some t) :
    t.cfg = s.cfg ∧ t.regs = s.regs ∧ t.pc = s.pc ∧ t.sram = s.sram ∧ t.flash = s.flash ∧ t.pinB = s.pinB ∧
      t.pinD = s.pinD ∧ t.sleeping = s.sleeping ∧ t.inputs = s.inputs := by
  cases r <;> simp only [State.ioRegWrite, Option.some.injEq, reduceCtorEq] at h <;> subst h <;> simp

/-- Only PINB and PIND cannot be written. -/
theorem ioRegWrite_eq_none {s : State} {v : Byte} {r : IoReg} :
    s.ioRegWrite v r = none ↔ r = .pinB ∨ r = .pinD := by
  cases r <;> simp [State.ioRegWrite]

theorem ioRead_ok {s : State} {a : IoAddr} {v : Byte} :
    s.ioRead a = .ok v ↔ ∃ r, s.ioRegAt a = some r ∧ s.ioRegRead r = v := by
  unfold State.ioRead
  split <;> rename_i h <;> simp [h]

theorem ioWrite_ok {s t : State} {a : IoAddr} {v : Byte} :
    s.ioWrite a v = .ok t ↔ ∃ r, s.ioRegAt a = some r ∧ s.ioRegWrite v r = some t := by
  unfold State.ioWrite
  split
  · rename_i r h
    split <;> rename_i h2 <;> simp [h, h2]
  · rename_i h
    simp [h]

theorem ioWrite_frame {s t : State} {a : IoAddr} {v : Byte} (h : s.ioWrite a v = .ok t) :
    t.cfg = s.cfg ∧ t.regs = s.regs ∧ t.pc = s.pc ∧ t.sram = s.sram ∧ t.flash = s.flash ∧ t.pinB = s.pinB ∧
      t.pinD = s.pinD ∧ t.sleeping = s.sleeping ∧ t.inputs = s.inputs := by
  obtain ⟨r, -, hr⟩ := ioWrite_ok.mp h
  exact ioRegWrite_frame hr

/-! ## The data space (20_memory.md R62) -/

/-- Everything a read of the data space can answer. -/
theorem memRead_ok {s : State} {a : Word} {v : Byte} :
    s.memRead a = .ok v ↔
      (a.toNat ≤ 0x1F ∧ v = s.reg (regOfAddr a)) ∨
      (0x1F < a.toNat ∧ a.toNat ≤ 0x5F ∧ s.ioRead (ioAddrOf a) = .ok v) ∨
      (0x5F < a.toNat ∧ s.inSram a = true ∧ s.sramByte a.toNat = some v) := by
  unfold State.memRead
  split
  · rename_i h
    have h1 : ¬ 0x1F < a.toNat := by omega
    have h2 : ¬ 0x5F < a.toNat := by omega
    simp only [h, h1, h2, true_and, false_and, or_false, Except.ok.injEq]
    exact eq_comm
  · rename_i h
    have h0 : 0x1F < a.toNat := by omega
    split
    · rename_i h1
      have h2 : ¬ 0x5F < a.toNat := by omega
      simp [h, h0, h1, h2]
    · rename_i h1
      have h2 : 0x5F < a.toNat := by omega
      split
      · rename_i h3
        split <;> rename_i h4 <;> simp [h, h1, h2, h3, h4]
      · rename_i h3
        simp [h, h1, h2, h3]

/-- Everything a write of the data space can do. -/
theorem memWrite_ok {s t : State} {a : Word} {v : Byte} :
    s.memWrite a v = .ok t ↔
      (a.toNat ≤ 0x1F ∧ t = s.setReg (regOfAddr a) v) ∨
      (0x1F < a.toNat ∧ a.toNat ≤ 0x5F ∧ s.ioWrite (ioAddrOf a) v = .ok t) ∨
      (0x5F < a.toNat ∧ s.inSram a = true ∧ t = s.setSram a v) := by
  unfold State.memWrite
  split
  · rename_i h
    have h1 : ¬ 0x1F < a.toNat := by omega
    have h2 : ¬ 0x5F < a.toNat := by omega
    simp only [h, h1, h2, true_and, false_and, or_false, Except.ok.injEq]
    exact eq_comm
  · rename_i h
    have h0 : 0x1F < a.toNat := by omega
    split
    · rename_i h1
      have h2 : ¬ 0x5F < a.toNat := by omega
      simp [h, h0, h1, h2]
    · rename_i h1
      have h2 : 0x5F < a.toNat := by omega
      split
      · rename_i h3
        simp only [h, h1, h2, h3, true_and, false_and, and_false, false_or, Except.ok.injEq]
        exact eq_comm
      · rename_i h3
        simp [h, h1, h2, h3]

/-- What no write of the data space changes. -/
theorem memWrite_frame {s t : State} {a : Word} {v : Byte} (h : s.memWrite a v = .ok t) :
    t.cfg = s.cfg ∧ t.pc = s.pc ∧ t.flash = s.flash ∧ t.pinB = s.pinB ∧ t.pinD = s.pinD ∧
      t.sleeping = s.sleeping ∧ t.inputs = s.inputs := by
  rcases memWrite_ok.mp h with ⟨-, rfl⟩ | ⟨-, -, hw⟩ | ⟨-, -, rfl⟩
  · simp
  · obtain ⟨h1, -, h3, -, h5, h6, h7, h8, h9⟩ := ioWrite_frame hw
    exact ⟨h1, h3, h5, h6, h7, h8, h9⟩
  · simp

/-! ## SRAM and program memory bytes -/

@[simp] theorem setSram_sramByte (s : State) (a : Word) (v : Byte) (b : Nat) :
    (s.setSram a v).sramByte b = if b = a.toNat then some v else s.sramByte b := by
  simp [State.sramByte, Memory.read_write_none]

/-- A byte of program memory after a byte is loaded, the memory being in canonical form. -/
theorem setFlash_flashByte {s : State} (hw : Memory.wf (some erasedByte) s.flash = true) (k : Nat) (v : Byte)
    (b : Nat) : (s.setFlash k v).flashByte b = if b = k then v else s.flashByte b := by
  have hr : Memory.rising s.flash = true := by
    simp only [Memory.wf, Bool.and_eq_true] at hw
    exact hw.1
  simp only [State.flashByte, setFlash_flash, Memory.read_write _ _ _ _ _ hr]
  by_cases h : b = k <;> simp [h]

/-! ## The canonical form is kept -/

/-- The two memories of a state are in canonical form, the SRAM within its addresses. -/
def MemoriesWf (s : State) : Prop :=
  Memory.wf none s.sram = true ∧
  Memory.within s.cfg.sramStart.toNat s.cfg.ramend.toNat s.sram = true ∧
  Memory.wf (some erasedByte) s.flash = true

theorem memoriesWf_of_same {s t : State} (h : MemoriesWf s) (hc : t.cfg = s.cfg) (hs : t.sram = s.sram)
    (hf : t.flash = s.flash) : MemoriesWf t := by
  simpa [MemoriesWf, hc, hs, hf] using h

theorem memoriesWf_reset : MemoriesWf State.reset := by
  refine ⟨?_, ?_, ?_⟩ <;> decide

theorem memoriesWf_resetOf (c : Config) : MemoriesWf (State.resetOf c) := ⟨rfl, rfl, rfl⟩

theorem memWrite_memoriesWf {s t : State} {a : Word} {v : Byte} (hs : MemoriesWf s)
    (h : s.memWrite a v = .ok t) : MemoriesWf t := by
  rcases memWrite_ok.mp h with ⟨-, rfl⟩ | ⟨-, -, hw⟩ | ⟨-, hin, rfl⟩
  · exact memoriesWf_of_same hs rfl rfl rfl
  · obtain ⟨h1, -, -, h4, h5, -⟩ := ioWrite_frame hw
    exact memoriesWf_of_same hs h1 h4 h5
  · simp only [State.inSram, decide_eq_true_eq] at hin
    refine ⟨Memory.wf_write hs.1 _ _, ?_, hs.2.2⟩
    simpa using Memory.within_write hs.2.1 hin _

theorem push8_ok {s t : State} {v : Byte} :
    s.push8 v = .ok t ↔ ∃ u, s.memWrite s.sp v = .ok u ∧ u.setSp (u.sp - 1) = t := by
  simp only [State.push8, bind_ok, pure_ok]

theorem pop8_ok {s t : State} {v : Byte} :
    s.pop8 = .ok (v, t) ↔
      t = s.setSp (s.sp + 1) ∧ (s.setSp (s.sp + 1)).memRead (s.setSp (s.sp + 1)).sp = .ok v := by
  simp only [State.pop8, bind_ok, pure_ok, Prod.mk.injEq]
  constructor
  · rintro ⟨w, h, rfl, rfl⟩; exact ⟨rfl, h⟩
  · rintro ⟨rfl, h⟩; exact ⟨v, h, rfl, rfl⟩

theorem pushPc_ok {s t : State} {w : Word} :
    s.pushPc w = .ok t ↔ ∃ u, s.push8 (loByte w) = .ok u ∧ u.push8 (hiByte w) = .ok t := by
  simp only [State.pushPc, bind_ok]

theorem push8_error {s : State} {v : Byte} {f : Fault} : s.push8 v = .error f ↔ s.memWrite s.sp v = .error f := by
  simp only [State.push8, bind_error, pure, Except.pure, reduceCtorEq, and_false, exists_false, or_false]

/-- A push of an address faults as its first or its second write does. -/
theorem pushPc_error {s : State} {w : Word} {f : Fault} :
    s.pushPc w = .error f ↔
      s.push8 (loByte w) = .error f ∨ ∃ u, s.push8 (loByte w) = .ok u ∧ u.push8 (hiByte w) = .error f := by
  simp only [State.pushPc, bind_error]

theorem pop8_error {s : State} {f : Fault} :
    s.pop8 = .error f ↔ (s.setSp (s.sp + 1)).memRead (s.setSp (s.sp + 1)).sp = .error f := by
  simp only [State.pop8, bind_error, pure, Except.pure, reduceCtorEq, and_false, exists_false, or_false]

/-- A pop of an address faults as its first or its second read does. -/
theorem popPc_error {s : State} {f : Fault} :
    s.popPc = .error f ↔ s.pop8 = .error f ∨ ∃ h u, s.pop8 = .ok (h, u) ∧ u.pop8 = .error f := by
  simp only [State.popPc, bind_error, pure, Except.pure, reduceCtorEq, and_false, exists_false, or_false,
    Prod.exists]

theorem popPc_ok {s t : State} {w : Word} :
    s.popPc = .ok (w, t) ↔
      ∃ h u l, s.pop8 = .ok (h, u) ∧ u.pop8 = .ok (l, t) ∧ w = joinBytes h l := by
  simp only [State.popPc, bind_ok, pure_ok, Prod.exists, Prod.mk.injEq]
  constructor
  · rintro ⟨h, u, hu, l, u', hu', rfl, rfl⟩; exact ⟨h, u, l, hu, hu', rfl⟩
  · rintro ⟨h, u, l, hu, hu', rfl⟩; exact ⟨h, u, hu, l, t, hu', rfl, rfl⟩

theorem push8_memoriesWf {s t : State} {v : Byte} (hs : MemoriesWf s) (h : s.push8 v = .ok t) :
    MemoriesWf t := by
  obtain ⟨u, hu, rfl⟩ := push8_ok.mp h
  exact memoriesWf_of_same (memWrite_memoriesWf hs hu) rfl rfl rfl

theorem pushPc_memoriesWf {s t : State} {w : Word} (hs : MemoriesWf s) (h : s.pushPc w = .ok t) :
    MemoriesWf t := by
  obtain ⟨u, h1, h2⟩ := pushPc_ok.mp h
  exact push8_memoriesWf (push8_memoriesWf hs h1) h2

theorem setFlash_memoriesWf {s : State} (hs : MemoriesWf s) (k : Nat) (v : Byte) :
    MemoriesWf (s.setFlash k v) :=
  ⟨hs.1, hs.2.1, Memory.wf_write hs.2.2 _ _⟩

theorem storeProgWord_memoriesWf {s : State} (hs : MemoriesWf s) (w : Nat) (v : Word) :
    MemoriesWf (s.storeProgWord w v) := setFlash_memoriesWf (setFlash_memoriesWf hs _ _) _ _

theorem loadProgram_memoriesWf {s : State} (hs : MemoriesWf s) (image : List (Nat × Word)) :
    MemoriesWf (s.loadProgram image) := by
  induction image generalizing s with
  | nil => exact hs
  | cons c image ih => exact ih (storeProgWord_memoriesWf hs _ _)

/-! ## Fetch and skip -/

theorem decodeAt_ok {s : State} {a w w1 : Word} {i : Instr} :
    s.decodeAt a w w1 = .ok i ↔ decode s.cfg.profile w w1 = .ok i := by
  unfold State.decodeAt
  split <;> rename_i h <;> simp [h]

/-- Everything a fetch can answer. -/
theorem fetch_ok {s : State} {i : Instr} :
    s.fetch = .ok i ↔
      ∃ w, s.fetchWord s.pc = .ok w ∧ ∃ w1, s.secondWord w = .ok w1 ∧ decode s.cfg.profile w w1 = .ok i := by
  simp only [State.fetch, bind_ok, decodeAt_ok]

theorem skipLen_ok {s : State} {a m : Word} :
    s.skipLen a = .ok m ↔
      ∃ w, s.fetchWord a = .ok w ∧ ∃ i, decode s.cfg.profile w 0 = .ok i ∧
        (if wordLength s.cfg.profile w = 2 then 2 else 1) = m := by
  simp only [State.skipLen, bind_ok, decodeAt_ok, pure_ok]

theorem skipIf_ok {s t : State} {c : Bool} :
    s.skipIf c = .ok t ↔
      (c = false ∧ s.advance 1 = t) ∨
      (c = true ∧ ∃ m, s.skipLen (s.pcPlus 1) = .ok m ∧ s.setPc (s.pc + 1 + m) = t) := by
  cases c
  · simp [State.skipIf, pure, Except.pure]
  · simp only [State.skipIf, if_true, bind_ok, pure_ok, true_and, reduceCtorEq, false_and, false_or]
  
/-! ## Interrupts and returns -/

/-- Everything interrupt entry can do (60_exceptions.md R356). -/
theorem takeInterrupt_ok {s t : State} {n : Nat} {q : Irq} :
    s.takeInterrupt n q = .ok t ↔
      ∃ u, s.pushPc s.pc = .ok u ∧
        t = { ((u.writeSreg (setFlag u.sreg .i false)).setIo (u.io.clearRequest q)).setPc
                (BitVec.ofNat 16 (n * u.cfg.vectorStride)) with sleeping := false, inhibit := false } := by
  simp only [State.takeInterrupt, bind_ok, pure_ok]
  constructor
  · rintro ⟨u, hu, rfl⟩; exact ⟨u, hu, rfl⟩
  · rintro ⟨u, hu, rfl⟩; exact ⟨u, hu, rfl⟩

/-- Interrupt entry, and each return, faults exactly as its stack accesses do. -/
theorem takeInterrupt_error {s : State} {n : Nat} {q : Irq} {f : Fault} :
    s.takeInterrupt n q = .error f ↔ s.pushPc s.pc = .error f := by
  simp only [State.takeInterrupt, bind_error, pure, Except.pure, reduceCtorEq, and_false, exists_false, or_false]

theorem returnFromInterrupt_error {s : State} {f : Fault} :
    s.returnFromInterrupt = .error f ↔ s.popPc = .error f := by
  simp only [State.returnFromInterrupt, bind_error, pure, Except.pure, reduceCtorEq, and_false, exists_false,
    or_false]

theorem returnFromCall_error {s : State} {f : Fault} : s.returnFromCall = .error f ↔ s.popPc = .error f := by
  simp only [State.returnFromCall, bind_error, pure, Except.pure, reduceCtorEq, and_false, exists_false, or_false]

theorem returnFromInterrupt_ok {s t : State} :
    s.returnFromInterrupt = .ok t ↔
      ∃ w u, s.popPc = .ok (w, u) ∧
        { (u.setPc w).writeSreg (setFlag u.sreg .i true) with inhibit := true } = t := by
  simp only [State.returnFromInterrupt, bind_ok, pure_ok, Prod.exists]

theorem returnFromCall_ok {s t : State} :
    s.returnFromCall = .ok t ↔ ∃ w u, s.popPc = .ok (w, u) ∧ u.setPc w = t := by
  simp only [State.returnFromCall, bind_ok, pure_ok, Prod.exists]

/-! ## Loads, stores, bits of I/O registers -/

theorem loadFrom_ok {s t : State} {a : Word} {rd : Reg} {n : Word} :
    s.loadFrom a rd n = .ok t ↔ ∃ v, s.memRead a = .ok v ∧ (s.setReg rd v).advance n = t := by
  simp only [State.loadFrom, bind_ok, pure_ok]

theorem storeTo_ok {s t : State} {a : Word} {rr : Reg} {n : Word} :
    s.storeTo a rr n = .ok t ↔ ∃ u, s.memWrite a (s.reg rr) = .ok u ∧ u.advance n = t := by
  simp only [State.storeTo, bind_ok, pure_ok]

theorem loadIndirect_plain_ok {s t : State} {p : Ptr} {rd : Reg} :
    s.loadIndirect p .plain rd = .ok t ↔
      ∃ v, s.memRead (s.ptr p) = .ok v ∧ (s.setReg rd v).advance 1 = t := by
  simp only [State.loadIndirect, PtrMode.modifies, Bool.false_and, Bool.false_eq_true, if_false, State.effAddr,
    bind_ok, pure_ok]

theorem loadIndirect_postInc_ok {s t : State} {p : Ptr} {rd : Reg} :
    s.loadIndirect p .postInc rd = .ok t ↔
      p.holds rd = false ∧ ∃ v, s.memRead (s.ptr p) = .ok v ∧
        ((s.setReg rd v).setPtr p (s.ptr p + 1)).advance 1 = t := by
  cases h : p.holds rd <;>
    simp only [State.loadIndirect, PtrMode.modifies, h, Bool.true_and, Bool.false_eq_true, if_true, if_false,
      State.effAddr, bind_ok, pure_ok, true_and, false_and, reduceCtorEq]

theorem loadIndirect_preDec_ok {s t : State} {p : Ptr} {rd : Reg} :
    s.loadIndirect p .preDec rd = .ok t ↔
      p.holds rd = false ∧ ∃ v, (s.setPtr p (s.ptr p - 1)).memRead (s.ptr p - 1) = .ok v ∧
        ((s.setPtr p (s.ptr p - 1)).setReg rd v).advance 1 = t := by
  cases h : p.holds rd <;>
    simp only [State.loadIndirect, PtrMode.modifies, h, Bool.true_and, Bool.false_eq_true, if_true, if_false,
      State.effAddr, bind_ok, pure_ok, true_and, false_and, reduceCtorEq]

theorem storeIndirect_plain_ok {s t : State} {p : Ptr} {rr : Reg} :
    s.storeIndirect p .plain rr = .ok t ↔
      ∃ u, s.memWrite (s.ptr p) (s.reg rr) = .ok u ∧ u.advance 1 = t := by
  simp only [State.storeIndirect, PtrMode.modifies, Bool.false_and, Bool.false_eq_true, if_false,
    State.effAddr, bind_ok, pure_ok]

theorem storeIndirect_postInc_ok {s t : State} {p : Ptr} {rr : Reg} :
    s.storeIndirect p .postInc rr = .ok t ↔
      (p.holds rr = false ∧ p.holdsAddr (s.ptr p) = false) ∧
        ∃ u, s.memWrite (s.ptr p) (s.reg rr) = .ok u ∧ (u.setPtr p (s.ptr p + 1)).advance 1 = t := by
  cases h : p.holds rr <;> cases h2 : p.holdsAddr (s.ptr p) <;>
    simp only [State.storeIndirect, PtrMode.modifies, h, h2, Bool.true_and, Bool.or_true, Bool.or_false,
      Bool.false_eq_true, if_true, if_false, State.effAddr, bind_ok, pure_ok, true_and, false_and, and_false,
      reduceCtorEq]

theorem storeIndirect_preDec_ok {s t : State} {p : Ptr} {rr : Reg} :
    s.storeIndirect p .preDec rr = .ok t ↔
      (p.holds rr = false ∧ p.holdsAddr (s.ptr p - 1) = false) ∧
        ∃ u, (s.setPtr p (s.ptr p - 1)).memWrite (s.ptr p - 1) ((s.setPtr p (s.ptr p - 1)).reg rr) = .ok u ∧
          u.advance 1 = t := by
  cases h : p.holds rr <;> cases h2 : p.holdsAddr (s.ptr p - 1) <;>
    simp only [State.storeIndirect, PtrMode.modifies, h, h2, Bool.true_and, Bool.or_true, Bool.or_false,
      Bool.false_eq_true, if_true, if_false, State.effAddr, bind_ok, pure_ok, true_and, false_and, and_false,
      reduceCtorEq]

theorem ioBitWrite_ok {s t : State} {a : IoAddr} {b : BitNo} {v : Bool} :
    s.ioBitWrite a b v = .ok t ↔
      ∃ old u, s.ioRead a = .ok old ∧ s.ioWrite a (setByteBit old b v) = .ok u ∧ u.advance 1 = t := by
  simp only [State.ioBitWrite, bind_ok, pure_ok]
  constructor
  · rintro ⟨old, ho, u, hu, rfl⟩; exact ⟨old, u, ho, hu, rfl⟩
  · rintro ⟨old, u, ho, hu, rfl⟩; exact ⟨old, ho, u, hu, rfl⟩

end Sys2Proof.Machine
end

