-- ==== Sys2Proof/Laws/PerInstr.lean ====
section
/-! SUPPORT. A property of the syntax, proved constructor by constructor: every well-formed instruction has the same
words as its base instruction, which is the one the decoder answers (30_encoding.md R112, R113). -/

namespace Sys2Proof.Laws

theorem core_of {i : Instr} (h : i.base = i) : i.core = true := by simp [Instr.core, h]

end Sys2Proof.Laws

namespace Sys2Proof.Laws.BaseForm

/-- The base instruction of a well-formed instruction is well formed, is no other spelling, exists on the same
profiles, and has the instruction's words, as many as R91 says. -/
def Statement (i : Instr) : Prop :=
  i.wf = true → i.base.wf = true ∧ i.base.core = true ∧ i.base.megaOnly = i.megaOnly ∧
    encode i.base = encode i ∧ (encode i).length = i.words

theorem mov (rd rr : Reg) : Statement (.mov rd rr) := fun h => ⟨h, core_of rfl, rfl, rfl, rfl⟩

theorem ldi (rd : Reg) (k : Byte) : Statement (.ldi rd k) := fun h => ⟨h, core_of rfl, rfl, rfl, rfl⟩

theorem ldX (rd : Reg) : Statement (.ldX rd) := fun h => ⟨h, core_of rfl, rfl, rfl, rfl⟩

theorem ldXInc (rd : Reg) : Statement (.ldXInc rd) := fun h => ⟨h, core_of rfl, rfl, rfl, rfl⟩

theorem ldXDec (rd : Reg) : Statement (.ldXDec rd) := fun h => ⟨h, core_of rfl, rfl, rfl, rfl⟩

theorem ldY (rd : Reg) : Statement (.ldY rd) := fun h => ⟨h, core_of rfl, rfl, rfl, rfl⟩

theorem ldYInc (rd : Reg) : Statement (.ldYInc rd) := fun h => ⟨h, core_of rfl, rfl, rfl, rfl⟩

theorem ldYDec (rd : Reg) : Statement (.ldYDec rd) := fun h => ⟨h, core_of rfl, rfl, rfl, rfl⟩

theorem lddY (rd : Reg) (q : BitVec 6) : Statement (.lddY rd q) := fun h => ⟨h, core_of rfl, rfl, rfl, rfl⟩

theorem ldZ (rd : Reg) : Statement (.ldZ rd) := fun h => ⟨h, core_of rfl, rfl, rfl, rfl⟩

theorem ldZInc (rd : Reg) : Statement (.ldZInc rd) := fun h => ⟨h, core_of rfl, rfl, rfl, rfl⟩

theorem ldZDec (rd : Reg) : Statement (.ldZDec rd) := fun h => ⟨h, core_of rfl, rfl, rfl, rfl⟩

theorem lddZ (rd : Reg) (q : BitVec 6) : Statement (.lddZ rd q) := fun h => ⟨h, core_of rfl, rfl, rfl, rfl⟩

theorem lds (rd : Reg) (k : Word) : Statement (.lds rd k) := fun h => ⟨h, core_of rfl, rfl, rfl, rfl⟩

theorem stX (rr : Reg) : Statement (.stX rr) := fun h => ⟨h, core_of rfl, rfl, rfl, rfl⟩

theorem stXInc (rr : Reg) : Statement (.stXInc rr) := fun h => ⟨h, core_of rfl, rfl, rfl, rfl⟩

theorem stXDec (rr : Reg) : Statement (.stXDec rr) := fun h => ⟨h, core_of rfl, rfl, rfl, rfl⟩

theorem stY (rr : Reg) : Statement (.stY rr) := fun h => ⟨h, core_of rfl, rfl, rfl, rfl⟩

theorem stYInc (rr : Reg) : Statement (.stYInc rr) := fun h => ⟨h, core_of rfl, rfl, rfl, rfl⟩

theorem stYDec (rr : Reg) : Statement (.stYDec rr) := fun h => ⟨h, core_of rfl, rfl, rfl, rfl⟩

theorem stdY (q : BitVec 6) (rr : Reg) : Statement (.stdY q rr) := fun h => ⟨h, core_of rfl, rfl, rfl, rfl⟩

theorem stZ (rr : Reg) : Statement (.stZ rr) := fun h => ⟨h, core_of rfl, rfl, rfl, rfl⟩

theorem stZInc (rr : Reg) : Statement (.stZInc rr) := fun h => ⟨h, core_of rfl, rfl, rfl, rfl⟩

theorem stZDec (rr : Reg) : Statement (.stZDec rr) := fun h => ⟨h, core_of rfl, rfl, rfl, rfl⟩

theorem stdZ (q : BitVec 6) (rr : Reg) : Statement (.stdZ q rr) := fun h => ⟨h, core_of rfl, rfl, rfl, rfl⟩

theorem sts (k : Word) (rr : Reg) : Statement (.sts k rr) := fun h => ⟨h, core_of rfl, rfl, rfl, rfl⟩

theorem lpm : Statement (.lpm) := fun h => ⟨h, core_of rfl, rfl, rfl, rfl⟩

theorem inPort (rd : Reg) (a : IoAddr) : Statement (.inPort rd a) := fun h => ⟨h, core_of rfl, rfl, rfl, rfl⟩

theorem outPort (a : IoAddr) (rr : Reg) : Statement (.outPort a rr) := fun h => ⟨h, core_of rfl, rfl, rfl, rfl⟩

theorem push (rr : Reg) : Statement (.push rr) := fun h => ⟨h, core_of rfl, rfl, rfl, rfl⟩

theorem pop (rd : Reg) : Statement (.pop rd) := fun h => ⟨h, core_of rfl, rfl, rfl, rfl⟩

theorem sbi (a : BitVec 5) (b : BitNo) : Statement (.sbi a b) := fun h => ⟨h, core_of rfl, rfl, rfl, rfl⟩

theorem cbi (a : BitVec 5) (b : BitNo) : Statement (.cbi a b) := fun h => ⟨h, core_of rfl, rfl, rfl, rfl⟩

theorem sbr (rd : Reg) (k : Byte) : Statement (.sbr rd k) := fun h => ⟨h, core_of rfl, rfl, rfl, rfl⟩

theorem cbr (rd : Reg) (k : Byte) : Statement (.cbr rd k) := fun h => ⟨h, core_of rfl, rfl, rfl, rfl⟩

theorem lsl (rd : Reg) : Statement (.lsl rd) := fun h => ⟨h, core_of rfl, rfl, rfl, rfl⟩

theorem lsr (rd : Reg) : Statement (.lsr rd) := fun h => ⟨h, core_of rfl, rfl, rfl, rfl⟩

theorem rol (rd : Reg) : Statement (.rol rd) := fun h => ⟨h, core_of rfl, rfl, rfl, rfl⟩

theorem ror (rd : Reg) : Statement (.ror rd) := fun h => ⟨h, core_of rfl, rfl, rfl, rfl⟩

theorem asr (rd : Reg) : Statement (.asr rd) := fun h => ⟨h, core_of rfl, rfl, rfl, rfl⟩

theorem swap (rd : Reg) : Statement (.swap rd) := fun h => ⟨h, core_of rfl, rfl, rfl, rfl⟩

theorem bset (s : BitNo) : Statement (.bset s) := fun h => ⟨h, core_of rfl, rfl, rfl, rfl⟩

theorem bclr (s : BitNo) : Statement (.bclr s) := fun h => ⟨h, core_of rfl, rfl, rfl, rfl⟩

theorem bst (rr : Reg) (b : BitNo) : Statement (.bst rr b) := fun h => ⟨h, core_of rfl, rfl, rfl, rfl⟩

theorem bld (rd : Reg) (b : BitNo) : Statement (.bld rd b) := fun h => ⟨h, core_of rfl, rfl, rfl, rfl⟩

theorem sec : Statement (.sec) := fun h => ⟨h, core_of rfl, rfl, rfl, rfl⟩

theorem clc : Statement (.clc) := fun h => ⟨h, core_of rfl, rfl, rfl, rfl⟩

theorem sen : Statement (.sen) := fun h => ⟨h, core_of rfl, rfl, rfl, rfl⟩

theorem cln : Statement (.cln) := fun h => ⟨h, core_of rfl, rfl, rfl, rfl⟩

theorem sez : Statement (.sez) := fun h => ⟨h, core_of rfl, rfl, rfl, rfl⟩

theorem clz : Statement (.clz) := fun h => ⟨h, core_of rfl, rfl, rfl, rfl⟩

theorem sei : Statement (.sei) := fun h => ⟨h, core_of rfl, rfl, rfl, rfl⟩

theorem cli : Statement (.cli) := fun h => ⟨h, core_of rfl, rfl, rfl, rfl⟩

theorem ses : Statement (.ses) := fun h => ⟨h, core_of rfl, rfl, rfl, rfl⟩

theorem cls : Statement (.cls) := fun h => ⟨h, core_of rfl, rfl, rfl, rfl⟩

theorem sev : Statement (.sev) := fun h => ⟨h, core_of rfl, rfl, rfl, rfl⟩

theorem clv : Statement (.clv) := fun h => ⟨h, core_of rfl, rfl, rfl, rfl⟩

theorem setT : Statement (.setT) := fun h => ⟨h, core_of rfl, rfl, rfl, rfl⟩

theorem clt : Statement (.clt) := fun h => ⟨h, core_of rfl, rfl, rfl, rfl⟩

theorem seh : Statement (.seh) := fun h => ⟨h, core_of rfl, rfl, rfl, rfl⟩

theorem clh : Statement (.clh) := fun h => ⟨h, core_of rfl, rfl, rfl, rfl⟩

theorem nop : Statement (.nop) := fun h => ⟨h, core_of rfl, rfl, rfl, rfl⟩

theorem sleep : Statement (.sleep) := fun h => ⟨h, core_of rfl, rfl, rfl, rfl⟩

theorem wdr : Statement (.wdr) := fun h => ⟨h, core_of rfl, rfl, rfl, rfl⟩

theorem add (rd rr : Reg) : Statement (.add rd rr) := fun h => ⟨h, core_of rfl, rfl, rfl, rfl⟩

theorem adc (rd rr : Reg) : Statement (.adc rd rr) := fun h => ⟨h, core_of rfl, rfl, rfl, rfl⟩

theorem adiw (rd : Reg) (k : BitVec 6) : Statement (.adiw rd k) := fun h => ⟨h, core_of rfl, rfl, rfl, rfl⟩

theorem sub (rd rr : Reg) : Statement (.sub rd rr) := fun h => ⟨h, core_of rfl, rfl, rfl, rfl⟩

theorem subi (rd : Reg) (k : Byte) : Statement (.subi rd k) := fun h => ⟨h, core_of rfl, rfl, rfl, rfl⟩

theorem sbc (rd rr : Reg) : Statement (.sbc rd rr) := fun h => ⟨h, core_of rfl, rfl, rfl, rfl⟩

theorem sbci (rd : Reg) (k : Byte) : Statement (.sbci rd k) := fun h => ⟨h, core_of rfl, rfl, rfl, rfl⟩

theorem sbiw (rd : Reg) (k : BitVec 6) : Statement (.sbiw rd k) := fun h => ⟨h, core_of rfl, rfl, rfl, rfl⟩

theorem and (rd rr : Reg) : Statement (.and rd rr) := fun h => ⟨h, core_of rfl, rfl, rfl, rfl⟩

theorem andi (rd : Reg) (k : Byte) : Statement (.andi rd k) := fun h => ⟨h, core_of rfl, rfl, rfl, rfl⟩

theorem or (rd rr : Reg) : Statement (.or rd rr) := fun h => ⟨h, core_of rfl, rfl, rfl, rfl⟩

theorem ori (rd : Reg) (k : Byte) : Statement (.ori rd k) := fun h => ⟨h, core_of rfl, rfl, rfl, rfl⟩

theorem eor (rd rr : Reg) : Statement (.eor rd rr) := fun h => ⟨h, core_of rfl, rfl, rfl, rfl⟩

theorem com (rd : Reg) : Statement (.com rd) := fun h => ⟨h, core_of rfl, rfl, rfl, rfl⟩

theorem neg (rd : Reg) : Statement (.neg rd) := fun h => ⟨h, core_of rfl, rfl, rfl, rfl⟩

theorem inc (rd : Reg) : Statement (.inc rd) := fun h => ⟨h, core_of rfl, rfl, rfl, rfl⟩

theorem dec (rd : Reg) : Statement (.dec rd) := fun h => ⟨h, core_of rfl, rfl, rfl, rfl⟩

theorem tst (rd : Reg) : Statement (.tst rd) := fun h => ⟨h, core_of rfl, rfl, rfl, rfl⟩

theorem clr (rd : Reg) : Statement (.clr rd) := fun h => ⟨h, core_of rfl, rfl, rfl, rfl⟩

theorem ser (rd : Reg) : Statement (.ser rd) := fun h => ⟨h, core_of rfl, rfl, rfl, rfl⟩

theorem rjmp (k : BitVec 12) : Statement (.rjmp k) := fun h => ⟨h, core_of rfl, rfl, rfl, rfl⟩

theorem ijmp : Statement (.ijmp) := fun h => ⟨h, core_of rfl, rfl, rfl, rfl⟩

theorem rcall (k : BitVec 12) : Statement (.rcall k) := fun h => ⟨h, core_of rfl, rfl, rfl, rfl⟩

theorem icall : Statement (.icall) := fun h => ⟨h, core_of rfl, rfl, rfl, rfl⟩

theorem ret : Statement (.ret) := fun h => ⟨h, core_of rfl, rfl, rfl, rfl⟩

theorem reti : Statement (.reti) := fun h => ⟨h, core_of rfl, rfl, rfl, rfl⟩

theorem cpse (rd rr : Reg) : Statement (.cpse rd rr) := fun h => ⟨h, core_of rfl, rfl, rfl, rfl⟩

theorem cp (rd rr : Reg) : Statement (.cp rd rr) := fun h => ⟨h, core_of rfl, rfl, rfl, rfl⟩

theorem cpc (rd rr : Reg) : Statement (.cpc rd rr) := fun h => ⟨h, core_of rfl, rfl, rfl, rfl⟩

theorem cpi (rd : Reg) (k : Byte) : Statement (.cpi rd k) := fun h => ⟨h, core_of rfl, rfl, rfl, rfl⟩

theorem sbrc (rr : Reg) (b : BitNo) : Statement (.sbrc rr b) := fun h => ⟨h, core_of rfl, rfl, rfl, rfl⟩

theorem sbrs (rr : Reg) (b : BitNo) : Statement (.sbrs rr b) := fun h => ⟨h, core_of rfl, rfl, rfl, rfl⟩

theorem sbic (a : BitVec 5) (b : BitNo) : Statement (.sbic a b) := fun h => ⟨h, core_of rfl, rfl, rfl, rfl⟩

theorem sbis (a : BitVec 5) (b : BitNo) : Statement (.sbis a b) := fun h => ⟨h, core_of rfl, rfl, rfl, rfl⟩

theorem brbs (s : BitNo) (k : BitVec 7) : Statement (.brbs s k) := fun h => ⟨h, core_of rfl, rfl, rfl, rfl⟩

theorem brbc (s : BitNo) (k : BitVec 7) : Statement (.brbc s k) := fun h => ⟨h, core_of rfl, rfl, rfl, rfl⟩

theorem breq (k : BitVec 7) : Statement (.breq k) := fun h => ⟨h, core_of rfl, rfl, rfl, rfl⟩

theorem brne (k : BitVec 7) : Statement (.brne k) := fun h => ⟨h, core_of rfl, rfl, rfl, rfl⟩

theorem brcs (k : BitVec 7) : Statement (.brcs k) := fun h => ⟨h, core_of rfl, rfl, rfl, rfl⟩

theorem brcc (k : BitVec 7) : Statement (.brcc k) := fun h => ⟨h, core_of rfl, rfl, rfl, rfl⟩

theorem brsh (k : BitVec 7) : Statement (.brsh k) := fun h => ⟨h, core_of rfl, rfl, rfl, rfl⟩

theorem brlo (k : BitVec 7) : Statement (.brlo k) := fun h => ⟨h, core_of rfl, rfl, rfl, rfl⟩

theorem brmi (k : BitVec 7) : Statement (.brmi k) := fun h => ⟨h, core_of rfl, rfl, rfl, rfl⟩

theorem brpl (k : BitVec 7) : Statement (.brpl k) := fun h => ⟨h, core_of rfl, rfl, rfl, rfl⟩

theorem brge (k : BitVec 7) : Statement (.brge k) := fun h => ⟨h, core_of rfl, rfl, rfl, rfl⟩

theorem brlt (k : BitVec 7) : Statement (.brlt k) := fun h => ⟨h, core_of rfl, rfl, rfl, rfl⟩

theorem brhs (k : BitVec 7) : Statement (.brhs k) := fun h => ⟨h, core_of rfl, rfl, rfl, rfl⟩

theorem brhc (k : BitVec 7) : Statement (.brhc k) := fun h => ⟨h, core_of rfl, rfl, rfl, rfl⟩

theorem brts (k : BitVec 7) : Statement (.brts k) := fun h => ⟨h, core_of rfl, rfl, rfl, rfl⟩

theorem brtc (k : BitVec 7) : Statement (.brtc k) := fun h => ⟨h, core_of rfl, rfl, rfl, rfl⟩

theorem brvs (k : BitVec 7) : Statement (.brvs k) := fun h => ⟨h, core_of rfl, rfl, rfl, rfl⟩

theorem brvc (k : BitVec 7) : Statement (.brvc k) := fun h => ⟨h, core_of rfl, rfl, rfl, rfl⟩

theorem brie (k : BitVec 7) : Statement (.brie k) := fun h => ⟨h, core_of rfl, rfl, rfl, rfl⟩

theorem brid (k : BitVec 7) : Statement (.brid k) := fun h => ⟨h, core_of rfl, rfl, rfl, rfl⟩

theorem movw (rd rr : Reg) : Statement (.movw rd rr) := fun h => ⟨h, core_of rfl, rfl, rfl, rfl⟩

theorem lpmZ (rd : Reg) : Statement (.lpmZ rd) := fun h => ⟨h, core_of rfl, rfl, rfl, rfl⟩

theorem lpmZInc (rd : Reg) : Statement (.lpmZInc rd) := fun h => ⟨h, core_of rfl, rfl, rfl, rfl⟩

theorem spm : Statement (.spm) := fun h => ⟨h, core_of rfl, rfl, rfl, rfl⟩

theorem brk : Statement (.brk) := fun h => ⟨h, core_of rfl, rfl, rfl, rfl⟩

theorem mul (rd rr : Reg) : Statement (.mul rd rr) := fun h => ⟨h, core_of rfl, rfl, rfl, rfl⟩

theorem muls (rd rr : Reg) : Statement (.muls rd rr) := fun h => ⟨h, core_of rfl, rfl, rfl, rfl⟩

theorem mulsu (rd rr : Reg) : Statement (.mulsu rd rr) := fun h => ⟨h, core_of rfl, rfl, rfl, rfl⟩

theorem fmul (rd rr : Reg) : Statement (.fmul rd rr) := fun h => ⟨h, core_of rfl, rfl, rfl, rfl⟩

theorem fmuls (rd rr : Reg) : Statement (.fmuls rd rr) := fun h => ⟨h, core_of rfl, rfl, rfl, rfl⟩

theorem fmulsu (rd rr : Reg) : Statement (.fmulsu rd rr) := fun h => ⟨h, core_of rfl, rfl, rfl, rfl⟩

theorem jmp (k : BitVec 22) : Statement (.jmp k) := fun h => ⟨h, core_of rfl, rfl, rfl, rfl⟩

theorem call (k : BitVec 22) : Statement (.call k) := fun h => ⟨h, core_of rfl, rfl, rfl, rfl⟩

end Sys2Proof.Laws.BaseForm
end

