-- ==== Sys2Proof/Machine/Assembler.lean ====
section
/-! DEFINITION. The assembler of the sources (30_encoding.md R117 to R119): its functions, constant expressions,
directives and the text of a line, and how a source becomes a program image (20_memory.md R67; entry 26).
No step uses it. -/

namespace Sys2Proof.Machine

/-! ## Functions (R119) -/

/-- The assembler functions of R119. -/
inductive AsmFn
  | low | high | byte2 | page | byte3 | byte4 | lwrd | hwrd | exp2 | log2
deriving DecidableEq, Repr

/-- The value a function returns (R119); LOG2 of 0 has none. -/
def AsmFn.apply (e : Nat) : AsmFn → Option Nat
  | .low => some (e % 2 ^ 8)
  | .high => some (e / 2 ^ 8 % 2 ^ 8)
  | .byte2 => some (e / 2 ^ 8 % 2 ^ 8)
  | .page => some (e / 2 ^ 16 % 2 ^ 6)
  | .byte3 => some (e / 2 ^ 16 % 2 ^ 8)
  | .byte4 => some (e / 2 ^ 24 % 2 ^ 8)
  | .lwrd => some (e % 2 ^ 16)
  | .hwrd => some (e / 2 ^ 16 % 2 ^ 16)
  | .exp2 => some (2 ^ e)
  | .log2 => if e = 0 then none else some (Nat.log2 e)

/-! ## Constant expressions (R117) -/

/-- A constant expression: the operators that occur are `*`, `/`, `<<`, `|` and parentheses (R117). -/
inductive AsmExpr
  | num (n : Nat)
  | sym (name : String)
  | mul (a b : AsmExpr)
  | div (a b : AsmExpr)
  | shl (a b : AsmExpr)
  | bor (a b : AsmExpr)
  | fn (f : AsmFn) (a : AsmExpr)
deriving DecidableEq, Repr

/-- The symbols known, the latest first. -/
abbrev AsmEnv := List (String × Nat)

/-- A symbol's value; "The Assembler is not case sensitive" (R117). -/
def asmLookup (name : String) : AsmEnv → Option Nat
  | [] => none
  | (n, v) :: env => if n.toLower = name.toLower then some v else asmLookup name env

/-- The value of an expression; none for an unknown symbol or a division by 0. -/
def AsmExpr.eval (env : AsmEnv) : AsmExpr → Option Nat
  | .num n => some n
  | .sym name => asmLookup name env
  | .mul a b => do
    let x ← a.eval env
    let y ← b.eval env
    pure (x * y)
  | .div a b => do
    let x ← a.eval env
    let y ← b.eval env
    if y = 0 then none else pure (x / y)
  | .shl a b => do
    let x ← a.eval env
    let y ← b.eval env
    pure (x <<< y)
  | .bor a b => do
    let x ← a.eval env
    let y ← b.eval env
    pure (x ||| y)
  | .fn f a => do
    let x ← a.eval env
    f.apply x

/-! ## Constant operands (R108, R117) -/

/-- An unsigned operand of `n` bits. -/
def unsigned (n : Nat) (v : Nat) : Option (BitVec n) := if v < 2 ^ n then some (BitVec.ofNat n v) else none

/-- K8, 0 to 255 (R108). -/
def immediate (v : Nat) : Option Byte := unsigned 8 v

/-- `k = label - (address of the instruction) - 1`, a signed offset of `n` bits (R108, R117). -/
def relative (n : Nat) (at_ v : Nat) : Option (BitVec n) :=
  let k : Int := (v : Int) - at_ - 1
  if -(2 ^ (n - 1) : Int) ≤ k ∧ k < 2 ^ (n - 1) then some (BitVec.ofInt n k) else none

/-- The instruction at word address `at_` with its constant operand replaced by the value of an expression: a label for
the relative branches, jumps and calls, else the constant itself. None where the value is out of range (R108), or the
instruction has no constant operand. -/
def Instr.withConst (at_ v : Nat) : Instr → Option Instr
  | .ldi rd _ => (immediate v).map fun k => .ldi rd k
  | .lddY rd _ => (unsigned 6 v).map fun q => .lddY rd q
  | .lddZ rd _ => (unsigned 6 v).map fun q => .lddZ rd q
  | .lds rd _ => (unsigned 16 v).map fun k => .lds rd k
  | .stdY _ rr => (unsigned 6 v).map fun q => .stdY q rr
  | .stdZ _ rr => (unsigned 6 v).map fun q => .stdZ q rr
  | .sts _ rr => (unsigned 16 v).map fun k => .sts k rr
  | .inPort rd _ => (unsigned 6 v).map fun a => .inPort rd a
  | .outPort _ rr => (unsigned 6 v).map fun a => .outPort a rr
  | .sbi _ b => (unsigned 5 v).map fun a => .sbi a b
  | .cbi _ b => (unsigned 5 v).map fun a => .cbi a b
  | .sbr rd _ => (immediate v).map fun k => .sbr rd k
  | .cbr rd _ => (immediate v).map fun k => .cbr rd k
  | .adiw rd _ => (unsigned 6 v).map fun k => .adiw rd k
  | .subi rd _ => (immediate v).map fun k => .subi rd k
  | .sbci rd _ => (immediate v).map fun k => .sbci rd k
  | .sbiw rd _ => (unsigned 6 v).map fun k => .sbiw rd k
  | .andi rd _ => (immediate v).map fun k => .andi rd k
  | .ori rd _ => (immediate v).map fun k => .ori rd k
  | .rjmp _ => (relative 12 at_ v).map fun k => .rjmp k
  | .rcall _ => (relative 12 at_ v).map fun k => .rcall k
  | .cpi rd _ => (immediate v).map fun k => .cpi rd k
  | .sbic _ b => (unsigned 5 v).map fun a => .sbic a b
  | .sbis _ b => (unsigned 5 v).map fun a => .sbis a b
  | .brbs s _ => (relative 7 at_ v).map fun k => .brbs s k
  | .brbc s _ => (relative 7 at_ v).map fun k => .brbc s k
  | .breq _ => (relative 7 at_ v).map fun k => .breq k
  | .brne _ => (relative 7 at_ v).map fun k => .brne k
  | .brcs _ => (relative 7 at_ v).map fun k => .brcs k
  | .brcc _ => (relative 7 at_ v).map fun k => .brcc k
  | .brsh _ => (relative 7 at_ v).map fun k => .brsh k
  | .brlo _ => (relative 7 at_ v).map fun k => .brlo k
  | .brmi _ => (relative 7 at_ v).map fun k => .brmi k
  | .brpl _ => (relative 7 at_ v).map fun k => .brpl k
  | .brge _ => (relative 7 at_ v).map fun k => .brge k
  | .brlt _ => (relative 7 at_ v).map fun k => .brlt k
  | .brhs _ => (relative 7 at_ v).map fun k => .brhs k
  | .brhc _ => (relative 7 at_ v).map fun k => .brhc k
  | .brts _ => (relative 7 at_ v).map fun k => .brts k
  | .brtc _ => (relative 7 at_ v).map fun k => .brtc k
  | .brvs _ => (relative 7 at_ v).map fun k => .brvs k
  | .brvc _ => (relative 7 at_ v).map fun k => .brvc k
  | .brie _ => (relative 7 at_ v).map fun k => .brie k
  | .brid _ => (relative 7 at_ v).map fun k => .brid k
  | .jmp _ => (unsigned 22 v).map fun k => .jmp k
  | .call _ => (unsigned 22 v).map fun k => .call k
  | .mov _ _ | .ldX _ | .ldXInc _ | .ldXDec _ | .ldY _ | .ldYInc _ | .ldYDec _ | .ldZ _ | .ldZInc _
  | .ldZDec _ | .stX _ | .stXInc _ | .stXDec _ | .stY _ | .stYInc _ | .stYDec _ | .stZ _ | .stZInc _
  | .stZDec _ | .lpm | .push _ | .pop _ | .lsl _ | .lsr _ | .rol _ | .ror _ | .asr _ | .swap _ | .bset _
  | .bclr _ | .bst _ _ | .bld _ _ | .sec | .clc | .sen | .cln | .sez | .clz | .sei | .cli | .ses | .cls
  | .sev | .clv | .setT | .clt | .seh | .clh | .nop | .sleep | .wdr | .add _ _ | .adc _ _ | .sub _ _
  | .sbc _ _ | .and _ _ | .or _ _ | .eor _ _ | .com _ | .neg _ | .inc _ | .dec _ | .tst _ | .clr _
  | .ser _ | .ijmp | .icall | .ret | .reti | .cpse _ _ | .cp _ _ | .cpc _ _ | .sbrc _ _ | .sbrs _ _
  | .movw _ _ | .lpmZ _ | .lpmZInc _ | .spm | .brk | .mul _ _ | .muls _ _ | .mulsu _ _ | .fmul _ _
  | .fmuls _ _ | .fmulsu _ _ => none

/-! ## Lines and directives (R117, R118) -/

/-- What a source line says. -/
inductive AsmLine
  /-- `;`: a comment only. -/
  | comment (text : String)
  /-- `name:`: an entry mark. -/
  | label (name : String)
  /-- `.equ name = e`: a constant, which cannot be changed later. -/
  | equ (name : String) (e : AsmExpr)
  /-- `.set name = e`: a variable, which may be set again. -/
  | set_ (name : String) (e : AsmExpr)
  /-- `.def name = Rn`: a symbolic name for a register. -/
  | def_ (name : String) (r : Reg)
  /-- `.org e`: the address from which the following is placed. -/
  | org (e : AsmExpr)
  /-- `.cseg`: a code segment follows. -/
  | cseg
  /-- `.dseg`: variables in SRAM follow. -/
  | dseg
  /-- `.eseg`: an EEPROM segment follows. -/
  | eseg
  /-- `.db`: byte constants. -/
  | db (es : List AsmExpr)
  /-- `.dw`: word constants. -/
  | dw (es : List AsmExpr)
  /-- `.byte e`: reserves `e` bytes. -/
  | byte (e : AsmExpr)
  /-- An instruction; `k`, if given, is its constant operand as an expression. -/
  | instr (i : Instr) (k : Option AsmExpr)
deriving DecidableEq, Repr

/-- The segments (R118). -/
inductive Segment
  | code | data | eeprom
deriving DecidableEq, Repr

/-- The assembler at work: the segment, the three location counters (code in words, the others in bytes, R118), the
symbols, the names `.equ` has fixed, and the program image. -/
structure AsmState where
  seg : Segment
  code : Nat
  data : Nat
  eeprom : Nat
  env : AsmEnv
  fixed : List String
  image : List (Nat × Word)
deriving DecidableEq, Repr

/-- Before the first line: a code segment from word 0; SRAM variables from $60 (70_reset_and_hazards.md R392). -/
def AsmState.start (env : AsmEnv) : AsmState :=
  { seg := .code, code := 0, data := 0x60, eeprom := 0, env := env, fixed := [], image := [] }

/-- The location counter of the segment in use. -/
def AsmState.here (s : AsmState) : Nat :=
  match s.seg with
  | .code => s.code
  | .data => s.data
  | .eeprom => s.eeprom

/-- The location counter of the segment in use moved. -/
def AsmState.moveTo (s : AsmState) (n : Nat) : AsmState :=
  match s.seg with
  | .code => { s with code := n }
  | .data => { s with data := n }
  | .eeprom => { s with eeprom := n }

/-- A new symbol; none if `.equ` has fixed the name (R118). -/
def AsmState.define (s : AsmState) (name : String) (v : Nat) (fix : Bool) : Option AsmState :=
  if s.fixed.contains name.toLower then none
  else some { s with env := (name, v) :: s.env, fixed := if fix then name.toLower :: s.fixed else s.fixed }

/-- Words placed in program memory; none outside a code segment. -/
def AsmState.emit (s : AsmState) : List Word → Option AsmState
  | [] => some s
  | w :: ws =>
    if s.seg = .code then
      AsmState.emit { s with code := s.code + 1, image := s.image ++ [(s.code, w)] } ws
    else none

/-- Bytes packed two to a word, the first in the low byte (20_memory.md R68); an odd last byte is followed by 0. -/
def packBytes : List Byte → List Word
  | [] => []
  | [b] => [wordOfBytes b 0]
  | b :: c :: bs => wordOfBytes b c :: packBytes bs

/-- The values of a list of expressions that each fit `n` bits. -/
def evalAll (n : Nat) (env : AsmEnv) : List AsmExpr → Option (List (BitVec n))
  | [] => some []
  | e :: es => do
    let v ← e.eval env
    let b ← unsigned n v
    let bs ← evalAll n env es
    pure (b :: bs)

/-- One line in one pass. In the first pass (`final = false`) only lengths and definitions matter, so that a label may be
used before its line; in the final pass the words are those of the operands' values. -/
def AsmState.line (final : Bool) (s : AsmState) : AsmLine → Option AsmState
  | .comment _ => some s
  | .label name => if final then some s else s.define name s.here false
  | .equ name e => do
    let v ← e.eval s.env
    if final then some { s with env := (name, v) :: s.env } else s.define name v true
  | .set_ name e => do
    let v ← e.eval s.env
    if final then some { s with env := (name, v) :: s.env } else s.define name v false
  | .def_ name r => some { s with env := (name, r.val) :: s.env }
  | .org e => do
    let v ← e.eval s.env
    pure (s.moveTo v)
  | .cseg => some { s with seg := .code }
  | .dseg => some { s with seg := .data }
  | .eseg => some { s with seg := .eeprom }
  | .db es =>
    if s.seg = .eeprom then some (s.moveTo (s.here + es.length))
    else if final then do
      let bs ← evalAll 8 s.env es
      s.emit (packBytes bs)
    else some (s.moveTo (s.here + (es.length + 1) / 2))
  | .dw es =>
    if s.seg = .eeprom then some (s.moveTo (s.here + 2 * es.length))
    else if final then do
      let ws ← evalAll 16 s.env es
      s.emit ws
    else some (s.moveTo (s.here + es.length))
  | .byte e => do
    let n ← e.eval s.env
    if s.seg = .code then none else pure (s.moveTo (s.here + n))
  | .instr i k =>
    if final then
      match k with
      | none => s.emit (encode i)
      | some e => do
        let v ← e.eval s.env
        let j ← Instr.withConst s.code v i
        s.emit (encode j)
    else some (s.moveTo (s.here + i.words))
/-- Lines in order. -/
def AsmState.lines (final : Bool) (s : AsmState) : List AsmLine → Option AsmState
  | [] => some s
  | l :: ls => do
    let t ← s.line final l
    AsmState.lines final t ls

/-- The program image of a source: a first pass for the symbols, a second for the words. `predefined` holds the symbols of
the device's include file (R117); `.include` stands for the included lines in its place (R118). -/
def assemble (predefined : AsmEnv) (lines : List AsmLine) : Option (List (Nat × Word)) := do
  let first ← (AsmState.start predefined).lines false lines
  let second ← (AsmState.start first.env).lines true lines
  pure second.image

/-- Symbols of the include file the sources use (60_exceptions.md R351; 10_state.md R35 to R37; 70_ R382). -/
def p2313Symbols : AsmEnv :=
  [("RAMEND", 0xDF), ("INT_VECTORS_SIZE", 11),
   ("INT0addr", 1), ("INT1addr", 2), ("ICP1addr", 3), ("OC1addr", 4), ("OVF1addr", 5), ("OVF0addr", 6),
   ("URXCaddr", 7), ("UDREaddr", 8), ("UTXCaddr", 9), ("ACIaddr", 10),
   ("SREG", 0x3F), ("SPL", 0x3D), ("GIMSK", 0x3B), ("GIFR", 0x3A), ("TIMSK", 0x39), ("TIFR", 0x38),
   ("MCUCR", 0x35), ("TCCR0", 0x33), ("TCCR0B", 0x33), ("TCNT0", 0x32), ("TCCR1A", 0x2F), ("TCCR1B", 0x2E),
   ("TCNT1H", 0x2D), ("TCNT1L", 0x2C), ("OCR1AH", 0x2B), ("OCR1AL", 0x2A), ("ICR1H", 0x25), ("ICR1L", 0x24),
   ("PORTB", 0x18), ("DDRB", 0x17), ("PINB", 0x16), ("PORTD", 0x12), ("DDRD", 0x11), ("PIND", 0x10),
   ("ISC00", 0), ("ISC01", 1), ("ISC10", 2), ("ISC11", 3), ("SM", 4), ("SE", 5), ("INT0", 6), ("INT1", 7)]

/-! ## The text of a line (R117) -/

/-- The number formats of R117. -/
inductive NumFormat
  /-- `255` -/
  | decimal
  /-- `0xFF` -/
  | hex
  /-- `$FF` -/
  | dollar
  /-- `0b11111111` -/
  | binary
  /-- `0377` -/
  | octal
deriving DecidableEq, Repr

/-- A number written in a format (R117). -/
def numText (n : Nat) : NumFormat → String
  | .decimal => String.ofList (Nat.toDigits 10 n)
  | .hex => "0x" ++ String.ofList (Nat.toDigits 16 n)
  | .dollar => "$" ++ String.ofList (Nat.toDigits 16 n)
  | .binary => "0b" ++ String.ofList (Nat.toDigits 2 n)
  | .octal => "0" ++ String.ofList (Nat.toDigits 8 n)

/-- A number in decimal. -/
def natText (n : Nat) : String := numText n .decimal

/-- A signed number in decimal. -/
def intText (k : Int) : String := if k < 0 then "-" ++ natText k.natAbs else natText k.natAbs

/-- `R0` to `R31` (R117). -/
def regText (r : Reg) : String := "R" ++ natText r.val

/-- An instruction's mnemonic and its operands, the destination first; a relative operand as its offset (R117). -/
def instrText : Instr → String × List String
  | .mov rd rr => ("mov", [regText rd, regText rr])
  | .ldi rd k => ("ldi", [regText rd, natText k.toNat])
  | .ldX rd => ("ld", [regText rd, "X"])
  | .ldXInc rd => ("ld", [regText rd, "X+"])
  | .ldXDec rd => ("ld", [regText rd, "-X"])
  | .ldY rd => ("ld", [regText rd, "Y"])
  | .ldYInc rd => ("ld", [regText rd, "Y+"])
  | .ldYDec rd => ("ld", [regText rd, "-Y"])
  | .lddY rd q => ("ldd", [regText rd, "Y+" ++ natText q.toNat])
  | .ldZ rd => ("ld", [regText rd, "Z"])
  | .ldZInc rd => ("ld", [regText rd, "Z+"])
  | .ldZDec rd => ("ld", [regText rd, "-Z"])
  | .lddZ rd q => ("ldd", [regText rd, "Z+" ++ natText q.toNat])
  | .lds rd k => ("lds", [regText rd, natText k.toNat])
  | .stX rr => ("st", ["X", regText rr])
  | .stXInc rr => ("st", ["X+", regText rr])
  | .stXDec rr => ("st", ["-X", regText rr])
  | .stY rr => ("st", ["Y", regText rr])
  | .stYInc rr => ("st", ["Y+", regText rr])
  | .stYDec rr => ("st", ["-Y", regText rr])
  | .stdY q rr => ("std", ["Y+" ++ natText q.toNat, regText rr])
  | .stZ rr => ("st", ["Z", regText rr])
  | .stZInc rr => ("st", ["Z+", regText rr])
  | .stZDec rr => ("st", ["-Z", regText rr])
  | .stdZ q rr => ("std", ["Z+" ++ natText q.toNat, regText rr])
  | .sts k rr => ("sts", [natText k.toNat, regText rr])
  | .lpm => ("lpm", [])
  | .inPort rd a => ("in", [regText rd, natText a.toNat])
  | .outPort a rr => ("out", [natText a.toNat, regText rr])
  | .push rr => ("push", [regText rr])
  | .pop rd => ("pop", [regText rd])
  | .sbi a b => ("sbi", [natText a.toNat, natText b.val])
  | .cbi a b => ("cbi", [natText a.toNat, natText b.val])
  | .sbr rd k => ("sbr", [regText rd, natText k.toNat])
  | .cbr rd k => ("cbr", [regText rd, natText k.toNat])
  | .lsl rd => ("lsl", [regText rd])
  | .lsr rd => ("lsr", [regText rd])
  | .rol rd => ("rol", [regText rd])
  | .ror rd => ("ror", [regText rd])
  | .asr rd => ("asr", [regText rd])
  | .swap rd => ("swap", [regText rd])
  | .bset s => ("bset", [natText s.val])
  | .bclr s => ("bclr", [natText s.val])
  | .bst rr b => ("bst", [regText rr, natText b.val])
  | .bld rd b => ("bld", [regText rd, natText b.val])
  | .sec => ("sec", [])
  | .clc => ("clc", [])
  | .sen => ("sen", [])
  | .cln => ("cln", [])
  | .sez => ("sez", [])
  | .clz => ("clz", [])
  | .sei => ("sei", [])
  | .cli => ("cli", [])
  | .ses => ("ses", [])
  | .cls => ("cls", [])
  | .sev => ("sev", [])
  | .clv => ("clv", [])
  | .setT => ("set", [])
  | .clt => ("clt", [])
  | .seh => ("seh", [])
  | .clh => ("clh", [])
  | .nop => ("nop", [])
  | .sleep => ("sleep", [])
  | .wdr => ("wdr", [])
  | .add rd rr => ("add", [regText rd, regText rr])
  | .adc rd rr => ("adc", [regText rd, regText rr])
  | .adiw rd k => ("adiw", [regText rd, natText k.toNat])
  | .sub rd rr => ("sub", [regText rd, regText rr])
  | .subi rd k => ("subi", [regText rd, natText k.toNat])
  | .sbc rd rr => ("sbc", [regText rd, regText rr])
  | .sbci rd k => ("sbci", [regText rd, natText k.toNat])
  | .sbiw rd k => ("sbiw", [regText rd, natText k.toNat])
  | .and rd rr => ("and", [regText rd, regText rr])
  | .andi rd k => ("andi", [regText rd, natText k.toNat])
  | .or rd rr => ("or", [regText rd, regText rr])
  | .ori rd k => ("ori", [regText rd, natText k.toNat])
  | .eor rd rr => ("eor", [regText rd, regText rr])
  | .com rd => ("com", [regText rd])
  | .neg rd => ("neg", [regText rd])
  | .inc rd => ("inc", [regText rd])
  | .dec rd => ("dec", [regText rd])
  | .tst rd => ("tst", [regText rd])
  | .clr rd => ("clr", [regText rd])
  | .ser rd => ("ser", [regText rd])
  | .rjmp k => ("rjmp", [intText k.toInt])
  | .ijmp => ("ijmp", [])
  | .rcall k => ("rcall", [intText k.toInt])
  | .icall => ("icall", [])
  | .ret => ("ret", [])
  | .reti => ("reti", [])
  | .cpse rd rr => ("cpse", [regText rd, regText rr])
  | .cp rd rr => ("cp", [regText rd, regText rr])
  | .cpc rd rr => ("cpc", [regText rd, regText rr])
  | .cpi rd k => ("cpi", [regText rd, natText k.toNat])
  | .sbrc rr b => ("sbrc", [regText rr, natText b.val])
  | .sbrs rr b => ("sbrs", [regText rr, natText b.val])
  | .sbic a b => ("sbic", [natText a.toNat, natText b.val])
  | .sbis a b => ("sbis", [natText a.toNat, natText b.val])
  | .brbs s k => ("brbs", [natText s.val, intText k.toInt])
  | .brbc s k => ("brbc", [natText s.val, intText k.toInt])
  | .breq k => ("breq", [intText k.toInt])
  | .brne k => ("brne", [intText k.toInt])
  | .brcs k => ("brcs", [intText k.toInt])
  | .brcc k => ("brcc", [intText k.toInt])
  | .brsh k => ("brsh", [intText k.toInt])
  | .brlo k => ("brlo", [intText k.toInt])
  | .brmi k => ("brmi", [intText k.toInt])
  | .brpl k => ("brpl", [intText k.toInt])
  | .brge k => ("brge", [intText k.toInt])
  | .brlt k => ("brlt", [intText k.toInt])
  | .brhs k => ("brhs", [intText k.toInt])
  | .brhc k => ("brhc", [intText k.toInt])
  | .brts k => ("brts", [intText k.toInt])
  | .brtc k => ("brtc", [intText k.toInt])
  | .brvs k => ("brvs", [intText k.toInt])
  | .brvc k => ("brvc", [intText k.toInt])
  | .brie k => ("brie", [intText k.toInt])
  | .brid k => ("brid", [intText k.toInt])
  | .movw rd rr => ("movw", [regText rd, regText rr])
  | .lpmZ rd => ("lpm", [regText rd, "Z"])
  | .lpmZInc rd => ("lpm", [regText rd, "Z+"])
  | .spm => ("spm", [])
  | .brk => ("break", [])
  | .mul rd rr => ("mul", [regText rd, regText rr])
  | .muls rd rr => ("muls", [regText rd, regText rr])
  | .mulsu rd rr => ("mulsu", [regText rd, regText rr])
  | .fmul rd rr => ("fmul", [regText rd, regText rr])
  | .fmuls rd rr => ("fmuls", [regText rd, regText rr])
  | .fmulsu rd rr => ("fmulsu", [regText rd, regText rr])
  | .jmp k => ("jmp", [natText k.toNat])
  | .call k => ("call", [natText k.toNat])

/-- A source line: an optional label, a mnemonic, operands separated by a comma, an optional comment (R117). -/
def lineText (label : Option String) (i : Instr) (comment : Option String) : String :=
  (match label with
    | some l => l ++ ": "
    | none => "") ++
  (instrText i).1 ++ " " ++ String.intercalate "," (instrText i).2 ++
  (match comment with
    | some c => " ; " ++ c
    | none => "")

end Sys2Proof.Machine
end

