-- ==== Sys2Proof/Machine/Timing.lean ====
section
/-! DEFINITION. The clock counts the sources print (70_reset_and_hazards.md R394). Informative: no step reads
them (R393, entry 25). -/

namespace Sys2Proof.Machine

/-- A cell of a clock column (R394). -/
inductive Clocks
  /-- One count. -/
  | always (n : Nat)
  /-- "1/2": 1 when the branch is not taken, 2 when taken. -/
  | branch
  /-- "1/2/3": 1 when nothing is skipped, else 1 plus the words skipped. -/
  | skip
  /-- "a/b", with no word on which. -/
  | either (a b : Nat)
  /-- Printed with D1's asterisk, whose footnote is lost: "a*" where both are equal, else "a/b*". -/
  | starred (a b : Nat)
  /-- No count printed ("-", "N/A", or no row). -/
  | none
deriving DecidableEq, Repr

/-- D0's "# Clocks" (R394). -/
def clocksD0 : Instr → Clocks
  | .mov _ _ | .ldi _ _ | .inPort _ _ | .outPort _ _ | .sbr _ _ | .cbr _ _ | .lsl _ | .lsr _ | .rol _
  | .ror _ | .asr _ | .swap _ | .bset _ | .bclr _ | .bst _ _ | .bld _ _ | .sec | .clc | .sen | .cln
  | .sez | .clz | .sei | .cli | .ses | .cls | .sev | .clv | .setT | .clt | .seh | .clh | .nop | .wdr
  | .add _ _ | .adc _ _ | .sub _ _ | .subi _ _ | .sbc _ _ | .sbci _ _ | .and _ _ | .andi _ _ | .or _ _
  | .ori _ _ | .eor _ _ | .com _ | .neg _ | .inc _ | .dec _ | .tst _ | .clr _ | .ser _ | .cp _ _
  | .cpc _ _ | .cpi _ _ | .movw _ _ => .always 1
  | .ldX _ | .ldXInc _ | .ldXDec _ | .ldY _ | .ldYInc _ | .ldYDec _ | .lddY _ _ | .ldZ _ | .ldZInc _
  | .ldZDec _ | .lddZ _ _ | .lds _ _ | .stX _ | .stXInc _ | .stXDec _ | .stY _ | .stYInc _ | .stYDec _
  | .stdY _ _ | .stZ _ | .stZInc _ | .stZDec _ | .stdZ _ _ | .sts _ _ | .push _ | .pop _ | .sbi _ _
  | .cbi _ _ | .adiw _ _ | .sbiw _ _ | .rjmp _ | .ijmp | .mul _ _ | .muls _ _ | .mulsu _ _ | .fmul _ _
  | .fmuls _ _ | .fmulsu _ _ => .always 2
  | .lpm | .sleep | .rcall _ | .icall | .lpmZ _ | .lpmZInc _ => .always 3
  | .ret | .reti | .call _ => .always 4
  | .cpse _ _ | .sbrc _ _ | .sbrs _ _ | .sbic _ _ | .sbis _ _ => .skip
  | .brbs _ _ | .brbc _ _ | .breq _ | .brne _ | .brcs _ | .brcc _ | .brsh _ | .brlo _ | .brmi _
  | .brpl _ | .brge _ | .brlt _ | .brhs _ | .brhc _ | .brts _ | .brtc _ | .brvs _ | .brvc _ | .brie _
  | .brid _ => .branch
  | .spm | .brk => .none
  | .jmp _ => .either 2 3

/-- D1's "Cycles" (R394). -/
def clocksD1 : Instr → Clocks
  | .mov _ _ | .ldi _ _ | .inPort _ _ | .outPort _ _ | .sbr _ _ | .cbr _ _ | .lsl _ | .lsr _ | .rol _
  | .ror _ | .asr _ | .swap _ | .bset _ | .bclr _ | .bst _ _ | .bld _ _ | .sec | .clc | .sen | .cln
  | .sez | .clz | .sei | .cli | .ses | .cls | .sev | .clv | .setT | .clt | .seh | .clh | .nop | .sleep
  | .wdr | .add _ _ | .adc _ _ | .sub _ _ | .subi _ _ | .sbc _ _ | .sbci _ _ | .and _ _ | .andi _ _
  | .or _ _ | .ori _ _ | .eor _ _ | .com _ | .neg _ | .inc _ | .dec _ | .tst _ | .clr _ | .ser _
  | .cp _ _ | .cpc _ _ | .cpi _ _ => .always 1
  | .ldX _ | .ldXInc _ | .ldXDec _ | .ldY _ | .ldYInc _ | .ldYDec _ | .lddY _ _ | .ldZ _ | .ldZInc _
  | .ldZDec _ | .lddZ _ _ | .lds _ _ | .stX _ | .stXInc _ | .stXDec _ | .stY _ | .sts _ _ => .starred 2 2
  | .stYInc _ | .stYDec _ | .stdY _ _ | .stZ _ | .stZInc _ | .stZDec _ | .stdZ _ _ | .push _ | .pop _
  | .sbi _ _ | .cbi _ _ | .adiw _ _ | .sbiw _ _ | .rjmp _ | .ijmp => .always 2
  | .lpm => .always 3
  | .rcall _ | .icall => .starred 3 4
  | .ret | .reti => .starred 4 5
  | .cpse _ _ | .sbrc _ _ | .sbrs _ _ | .sbic _ _ | .sbis _ _ => .skip
  | .brbs _ _ | .brbc _ _ | .breq _ | .brne _ | .brcs _ | .brcc _ | .brsh _ | .brlo _ | .brmi _
  | .brpl _ | .brge _ | .brlt _ | .brhs _ | .brhc _ | .brts _ | .brtc _ | .brvs _ | .brvc _ | .brie _
  | .brid _ => .branch
  | .movw _ _ | .lpmZ _ | .lpmZInc _ | .spm | .brk | .mul _ _ | .muls _ _ | .mulsu _ _ | .fmul _ _
  | .fmuls _ _ | .fmulsu _ _ | .jmp _ | .call _ => .none

/-- Every count a cell allows. -/
def Clocks.counts : Clocks → List Nat
  | .always n => [n]
  | .branch => [1, 2]
  | .skip => [1, 2, 3]
  | .either a b => [a, b]
  | .starred a b => [a, b]
  | .none => []

/-- The clocks of interrupt entry (R395, R356). -/
def interruptEntryClocks : Nat := 4

end Sys2Proof.Machine
end

