-- ==== Sys2Proof/Tests/Slice0.lean ====
section
/-! SUPPORT. The tests: ill-formed terms refused, words written out from the spec's encodings, vectors of
95_test_vectors.md, and for every statement with hypotheses a state that meets them. -/

namespace Sys2Proof.Tests

open Sys2Proof.Machine

/-! ## Helpers -/

/-- The AT90S2313 after reset with some registers, an SREG and an SP. -/
def small (rs : List (Reg × Byte)) (sreg : Byte := 0) (sp : Word := 0xDF) : State :=
  rs.foldl (fun s c => s.setReg c.1 c.2) { State.reset with sreg := sreg, sp := sp }

/-- The same with one SRAM byte. -/
def smallMem (rs : List (Reg × Byte)) (a : Word) (v : Byte) (sp : Word := 0xDF) : State :=
  (small rs 0 sp).setSram a v

/-- The PMEGA device after reset with some registers. -/
def mega (rs : List (Reg × Byte)) : State :=
  rs.foldl (fun s c => s.setReg c.1 c.2) (State.resetOf Config.pmega)

/-- The words decode on the state's profile, and the instruction leads to a state with the property. -/
def does (s : State) (w w1 : Word) (p : State → Bool) : Bool :=
  match decode? s.cfg.profile w w1 with
  | some i =>
    match exec i s with
    | .next t => p t
    | .fault _ => false
    | .refused _ => false
  | none => false

/-- The words decode on the state's profile, and the instruction faults so. -/
def faults (s : State) (w w1 : Word) (f : Fault) : Bool :=
  match decode? s.cfg.profile w w1 with
  | some i =>
    match exec i s with
    | .next _ => false
    | .fault g => f == g
    | .refused _ => false
  | none => false

/-- One step leads to a state with the property. -/
def steps (s : State) (p : State → Bool) : Bool :=
  match step s with
  | .next t => p t
  | .fault _ => false
  | .refused _ => false

/-- One step faults so. -/
def stepFaults (s : State) (f : Fault) : Bool :=
  match step s with
  | .next _ => false
  | .fault g => f == g
  | .refused _ => false

/-- All the words decode as listed. -/
def decodes (p : Profile) (l : List (Word × Word × Instr)) : Bool :=
  l.all fun c => decode? p c.1 c.2.1 == some c.2.2

/-- All the instructions encode as listed. -/
def encodes (l : List (Instr × List Word)) : Bool := l.all fun c => encode c.1 == c.2

/-! ## Ill-formed terms are refused (10_state.md R23) -/

theorem test_wf_refuses_upper :
    ([.ldi 15 0, .sbr 15 0, .cbr 0 1, .subi 15 0, .sbci 15 0, .andi 15 0, .ori 15 0, .cpi 15 0, .ser 15] :
      List Instr).all (fun i => !i.wf) = true := by decide

theorem test_wf_refuses_pairs :
    ([.adiw 25 0, .adiw 22 0, .sbiw 31 0, .movw 1 0, .movw 0 31] : List Instr).all (fun i => !i.wf) = true := by
  decide

theorem test_wf_refuses_multiplies :
    ([.muls 15 16, .muls 16 15, .mulsu 24 16, .mulsu 16 15, .fmul 15 16, .fmul 16 24, .fmuls 24 16, .fmuls 16 15,
      .fmulsu 15 16, .fmulsu 16 24] : List Instr).all (fun i => !i.wf) = true := by decide

theorem test_wf_accepts :
    ([.ldi 16 0, .adiw 30 63, .movw 24 30, .muls 31 16, .fmulsu 23 16] : List Instr).all Instr.wf = true := by
  decide

theorem test_profile : (Instr.movw 0 2).onProfile .p2313 = false ∧ (Instr.brk).onProfile .p2313 = false ∧
    (Instr.lpm).onProfile .p2313 = true := by decide

theorem test_config_refuses :
    ({ Config.p2313 with pcw := 17 }).wf = false ∧ ({ Config.p2313 with flashWords := 1025 }).wf = false ∧
    ({ Config.p2313 with spw := 12 }).wf = false ∧ ({ Config.p2313 with sramStart := 0x5F }).wf = false ∧
    ({ Config.p2313 with ramend := 0x100 }).wf = false ∧
    ({ Config.p2313 with ioMap := [(.sreg, 0x3F), (.spl, 0x3F)] }).wf = false ∧ Config.p2313.wf = true := by decide

/-! ## Words written out from the encodings (30_encoding.md R93 to R111; the words of 40_ to 44_) -/

theorem test_words_moves :
    decodes .p2313
    [(0x2D00, 0x0000, .mov 16 0),
     (0x2C12, 0x0000, .mov 1 2),
     (0xE003, 0x0000, .ldi 16 3),
     (0xE6A0, 0x0000, .ldi 26 0x60)] = true := by decide

theorem test_words_loads :
    decodes .p2313
    [(0x900C, 0x0000, .ldX 0),
     (0x918D, 0x0000, .ldXInc 24),
     (0x905E, 0x0000, .ldXDec 5),
     (0x9109, 0x0000, .ldYInc 16),
     (0x910A, 0x0000, .ldYDec 16),
     (0x810D, 0x0000, .lddY 16 5),
     (0xAD0F, 0x0000, .lddY 16 63),
     (0x9101, 0x0000, .ldZInc 16),
     (0x9102, 0x0000, .ldZDec 16),
     (0x8102, 0x0000, .lddZ 16 2),
     (0x9100, 0x0060, .lds 16 0x60)] = true := by decide

theorem test_words_stores :
    decodes .p2313
    [(0x938C, 0x0000, .stX 24),
     (0x938D, 0x0000, .stXInc 24),
     (0x938E, 0x0000, .stXDec 24),
     (0x9309, 0x0000, .stYInc 16),
     (0x930A, 0x0000, .stYDec 16),
     (0x8309, 0x0000, .stdY 1 16),
     (0x9301, 0x0000, .stZInc 16),
     (0x9302, 0x0000, .stZDec 16),
     (0xAE07, 0x0000, .stdZ 63 0),
     (0x9300, 0x0038, .sts 0x38 16)] = true := by decide

theorem test_words_system_transfer :
    decodes .p2313
    [(0x95C8, 0x0000, .lpm),
     (0xB300, 0x0000, .inPort 16 0x10),
     (0xB70F, 0x0000, .inPort 16 0x3F),
     (0xBB08, 0x0000, .outPort 0x18 16),
     (0xBF0D, 0x0000, .outPort 0x3D 16),
     (0x930F, 0x0000, .push 16),
     (0x910F, 0x0000, .pop 16)] = true := by decide

theorem test_words_bits :
    decodes .p2313
    [(0x9AC2, 0x0000, .sbi 0x18 2),
     (0x98C2, 0x0000, .cbi 0x18 2),
     (0x9506, 0x0000, .lsr 16),
     (0x9507, 0x0000, .ror 16),
     (0x9505, 0x0000, .asr 16),
     (0x9502, 0x0000, .swap 16),
     (0x9468, 0x0000, .bset 6),
     (0x9488, 0x0000, .bclr 0),
     (0xFB03, 0x0000, .bst 16 3),
     (0xF910, 0x0000, .bld 17 0)] = true := by decide

theorem test_words_control :
    decodes .p2313
    [(0x0000, 0x0000, .nop),
     (0x9588, 0x0000, .sleep),
     (0x95A8, 0x0000, .wdr),
     (0x9478, 0x0000, .bset 7),
     (0x94F8, 0x0000, .bclr 7)] = true := by decide

theorem test_words_add_subtract :
    decodes .p2313
    [(0x0F01, 0x0000, .add 16 17),
     (0x1F01, 0x0000, .adc 16 17),
     (0x960D, 0x0000, .adiw 24 13),
     (0x1B01, 0x0000, .sub 16 17),
     (0x5001, 0x0000, .subi 16 1),
     (0x0B01, 0x0000, .sbc 16 17),
     (0x4000, 0x0000, .sbci 16 0),
     (0x9711, 0x0000, .sbiw 26 1),
     (0x1B86, 0x0000, .sub 24 22)] = true := by decide

theorem test_words_logic :
    decodes .p2313
    [(0x2301, 0x0000, .and 16 17),
     (0x700F, 0x0000, .andi 16 0x0F),
     (0x2B01, 0x0000, .or 16 17),
     (0x6800, 0x0000, .ori 16 0x80),
     (0x2701, 0x0000, .eor 16 17),
     (0x9500, 0x0000, .com 16),
     (0x9501, 0x0000, .neg 16),
     (0x9583, 0x0000, .inc 24),
     (0x950A, 0x0000, .dec 16)] = true := by decide

theorem test_words_jumps :
    decodes .p2313
    [(0xCFFF, 0x0000, .rjmp (-1)),
     (0xC7FF, 0x0000, .rjmp 2047),
     (0xC800, 0x0000, .rjmp (-2048)),
     (0x9409, 0x0000, .ijmp),
     (0xD00F, 0x0000, .rcall 15),
     (0x9509, 0x0000, .icall),
     (0x9508, 0x0000, .ret),
     (0x9518, 0x0000, .reti)] = true := by decide

theorem test_words_compares_skips :
    decodes .p2313
    [(0x1301, 0x0000, .cpse 16 17),
     (0x1701, 0x0000, .cp 16 17),
     (0x0701, 0x0000, .cpc 16 17),
     (0x3100, 0x0000, .cpi 16 0x10),
     (0xFD03, 0x0000, .sbrc 16 3),
     (0xFF03, 0x0000, .sbrs 16 3),
     (0x9984, 0x0000, .sbic 0x10 4),
     (0x9B84, 0x0000, .sbis 0x10 4)] = true := by decide

theorem test_words_branches :
    decodes .p2313
    [(0xF011, 0x0000, .brbs 1 2),
     (0xF7F1, 0x0000, .brbc 1 (-2)),
     (0xF1F9, 0x0000, .brbs 1 63),
     (0xF601, 0x0000, .brbc 1 (-64))] = true := by decide

theorem test_words_mega :
    decodes .pmega
    [(0x01CF, 0x0000, .movw 24 30),
     (0x9104, 0x0000, .lpmZ 16),
     (0x9105, 0x0000, .lpmZInc 16),
     (0x95E8, 0x0000, .spm),
     (0x9598, 0x0000, .brk),
     (0x9F01, 0x0000, .mul 16 17),
     (0x0201, 0x0000, .muls 16 17),
     (0x0301, 0x0000, .mulsu 16 17),
     (0x0309, 0x0000, .fmul 16 17),
     (0x0381, 0x0000, .fmuls 16 17),
     (0x0389, 0x0000, .fmulsu 16 17),
     (0x940C, 0x0100, .jmp 0x100),
     (0x940E, 0x0100, .call 0x100),
     (0x95FD, 0xFFFF, .jmp 0x3FFFFF)] = true := by decide

/-- Second spellings: the words their rules print. -/
theorem test_alias_words_transfer :
    encodes
    [(.ldY 16, [0x8108]),
     (.ldZ 16, [0x8100]),
     (.stY 16, [0x8308]),
     (.stZ 16, [0x8300]),
     (.ser 16, [0xEF0F]),
     (.sbr 16 0x0F, [0x600F]),
     (.cbr 16 0x0F, [0x7F00]),
     (.lsl 16, [0x0F00]),
     (.rol 16, [0x1F00]),
     (.tst 16, [0x2300]),
     (.clr 16, [0x2700])] = true := by decide

/-- B21, B22. -/
theorem test_alias_words_flags :
    encodes
    [(.sec, [0x9408]),
     (.sez, [0x9418]),
     (.sen, [0x9428]),
     (.sev, [0x9438]),
     (.ses, [0x9448]),
     (.seh, [0x9458]),
     (.setT, [0x9468]),
     (.sei, [0x9478]),
     (.clc, [0x9488]),
     (.clz, [0x9498]),
     (.cln, [0x94A8]),
     (.clv, [0x94B8]),
     (.cls, [0x94C8]),
     (.clh, [0x94D8]),
     (.clt, [0x94E8]),
     (.cli, [0x94F8])] = true := by decide

/-- J30. -/
theorem test_alias_words_branches :
    encodes
    [(.brvs 4, [0xF023]),
     (.brvc 4, [0xF423]),
     (.brcs 4, [0xF020]),
     (.brlo 4, [0xF020]),
     (.brcc 4, [0xF420]),
     (.brsh 4, [0xF420]),
     (.breq 4, [0xF021]),
     (.brne 4, [0xF421]),
     (.brmi 4, [0xF022]),
     (.brpl 4, [0xF422]),
     (.brlt 4, [0xF024]),
     (.brge 4, [0xF424]),
     (.brhs 4, [0xF025]),
     (.brhc 4, [0xF425]),
     (.brts 4, [0xF026]),
     (.brtc 4, [0xF426]),
     (.brie 4, [0xF027]),
     (.brid 4, [0xF427])] = true := by decide

/-- E1 to E4, E6, E7: reserved on both profiles. -/
theorem test_reserved_words :
    ([0xFFFF, 0x9404, 0x0001, 0xF808, 0x9003, 0x9419] : List Word).all
      (fun w => decode? .p2313 w 0 == none && decode? .pmega w 0 == none) = true := by decide

/-- E5: reserved on P2313 only. -/
theorem test_reserved_words_p2313 :
    ([0x9104, 0x9105, 0x9C00, 0x0100, 0x0200, 0x0300, 0x940C, 0x940E, 0x9598, 0x95E8] : List Word).all
      (fun w => decode? .p2313 w 0 == none && decode? .pmega w 0 != none) = true := by decide

theorem test_table_words :
    decodeTableWord 16 0x0F01 = some (.add 16 17) ∧ decodeTableWord 32 0x00609100 = some (.lds 16 0x60) ∧
    decodeTableWord 16 0xFFFF = none ∧ decodeTableWord 16 0x940C = some (.jmp 0) := by decide

/-! ## Vectors (95_test_vectors.md, part 2) -/

/-- T1. -/
theorem test_mov :
    does (small [(0, 0x5A)] 0xFF) 0x2D00 0x0000 (fun t => t.reg 16 == 0x5A && t.sreg == 0xFF && t.pc == 1) = true := by decide

/-- T3. -/
theorem test_ldi :
    does (small []) 0xEF0F 0x0000 (fun t => t.reg 16 == 0xFF && t.sreg == 0) = true := by decide

/-- T4. -/
theorem test_ld_x :
    does (smallMem [(26, 0x60)] 0x60 0x12) 0x900C 0x0000 (fun t => t.reg 0 == 0x12 && t.ptr .x == 0x60) = true := by decide

/-- T8. -/
theorem test_ld_x_range :
    faults (small [(26, 0xE0)]) 0x900C 0x0000 (.dataAddressOutOfRange 0xE0) = true := by decide

/-- T5. -/
theorem test_ld_x_inc :
    does (smallMem [(26, 0x60)] 0x60 0x02) 0x918D 0x0000 (fun t => t.reg 24 == 2 && t.ptr .x == 0x61) = true := by decide

/-- T7. -/
theorem test_ld_x_inc_undefined :
    faults (small [(26, 0x60)]) 0x91AD 0x0000 (.undefinedOperandCombination 0) = true := by decide

/-- T6. -/
theorem test_ld_x_dec :
    does (smallMem [(26, 0x62)] 0x61 0xAB) 0x905E 0x0000 (fun t => t.reg 5 == 0xAB && t.ptr .x == 0x61) = true := by decide

/-- T9. -/
theorem test_ld_register_file :
    does (small [(26, 5), (5, 0x99)]) 0x910C 0x0000 (fun t => t.reg 16 == 0x99) = true := by decide

/-- R136. -/
theorem test_ld_y_inc :
    does (smallMem [(28, 0xDF)] 0xDF 0x77) 0x9109 0x0000 (fun t => t.reg 16 == 0x77 && t.ptr .y == 0xE0) = true := by decide

/-- R137. -/
theorem test_ld_y_dec :
    does (smallMem [(28, 0x61)] 0x60 0x78) 0x910A 0x0000 (fun t => t.reg 16 == 0x78 && t.ptr .y == 0x60) = true := by decide

/-- T11. -/
theorem test_ldd_y :
    does (smallMem [(28, 0x60)] 0x9F 0x33) 0xAD0F 0x0000 (fun t => t.reg 16 == 0x33 && t.ptr .y == 0x60) = true := by decide

/-- R64: $FFFF + 1 is data address 0. -/
theorem test_ldd_y_wraps :
    does (small [(28, 0xFF), (29, 0xFF), (0, 0x42)]) 0x8109 0x0000 (fun t => t.reg 16 == 0x42) = true := by decide

/-- R140. -/
theorem test_ld_z_inc :
    does (smallMem [(30, 0x60)] 0x60 0x79) 0x9101 0x0000 (fun t => t.reg 16 == 0x79 && t.ptr .z == 0x61) = true := by decide

/-- R141. -/
theorem test_ld_z_dec :
    does (smallMem [(30, 0x61)] 0x60 0x7A) 0x9102 0x0000 (fun t => t.reg 16 == 0x7A && t.ptr .z == 0x60) = true := by decide

/-- R142. -/
theorem test_ldd_z :
    does (smallMem [(30, 0x60)] 0x62 0x7B) 0x8102 0x0000 (fun t => t.reg 16 == 0x7B && t.ptr .z == 0x60) = true := by decide

/-- T16. -/
theorem test_lds_port :
    does ((small []).setIo { IoFile.reset with portB := 0xA5 }) 0x9100 0x0038 (fun t => t.reg 16 == 0xA5 && t.pc == 2) = true := by decide

/-- R144. -/
theorem test_st_x :
    does (small [(26, 0xDF), (24, 9)]) 0x938C 0x0000 (fun t => t.sramByte 0xDF == some 9 && t.ptr .x == 0xDF) = true := by decide

/-- S5. -/
theorem test_st_x_inc :
    does (small [(26, 0x60), (24, 2)]) 0x938D 0x0000 (fun t => t.sramByte 0x60 == some 2 && t.ptr .x == 0x61) = true := by decide

/-- R160 (b). -/
theorem test_st_x_inc_undefined :
    faults (small [(26, 0x1A)]) 0x938D 0x0000 (.undefinedOperandCombination 0) = true := by decide

/-- T14. -/
theorem test_st_x_dec :
    does (small [(26, 0x62), (24, 9)]) 0x938E 0x0000 (fun t => t.sramByte 0x61 == some 9 && t.ptr .x == 0x61) = true := by decide

/-- R148. -/
theorem test_st_y_inc :
    does (small [(28, 0x60), (16, 3)]) 0x9309 0x0000 (fun t => t.sramByte 0x60 == some 3 && t.ptr .y == 0x61) = true := by decide

/-- T15. -/
theorem test_st_y_dec :
    does (small [(28, 0x61), (16, 1)]) 0x930A 0x0000 (fun t => t.sramByte 0x60 == some 1 && t.ptr .y == 0x60) = true := by decide

/-- T13. -/
theorem test_std_y :
    does (small [(28, 0x60), (16, 0x44)]) 0x8309 0x0000 (fun t => t.sramByte 0x61 == some 0x44) = true := by decide

/-- R152. -/
theorem test_st_z_inc :
    does (small [(30, 0x60), (16, 4)]) 0x9301 0x0000 (fun t => t.sramByte 0x60 == some 4 && t.ptr .z == 0x61) = true := by decide

/-- R153. -/
theorem test_st_z_dec :
    does (small [(30, 0x61), (16, 5)]) 0x9302 0x0000 (fun t => t.sramByte 0x60 == some 5 && t.ptr .z == 0x60) = true := by decide

/-- T12. -/
theorem test_std_z :
    does (small [(30, 0x60), (0, 0x11)]) 0xAE07 0x0000 (fun t => t.sramByte 0x9F == some 0x11) = true := by decide

/-- T17. -/
theorem test_sts_register :
    does (small [(16, 0x99)]) 0x9300 0x0005 (fun t => t.reg 5 == 0x99 && t.pc == 2) = true := by decide

/-- T18. -/
theorem test_sts_sreg :
    does (small [(16, 0x81)]) 0x9300 0x005F (fun t => t.sreg == 0x81 && t.inhibit) = true := by decide

/-- T19. -/
theorem test_lpm_low :
    does ((small [(30, 0x20)]).storeProgWord 0x10 0x4241) 0x95C8 0x0000 (fun t => t.reg 0 == 0x41) = true := by decide

/-- T21. -/
theorem test_lpm_range :
    faults (small [(31, 0x08)]) 0x95C8 0x0000 (.progAddressOutOfRange 0x800) = true := by decide

/-- T22. -/
theorem test_in_sreg :
    does (small [] 0x82) 0xB70F 0x0000 (fun t => t.reg 16 == 0x82) = true := by decide

/-- T24. -/
theorem test_in_unmodelled :
    faults (small []) 0xB10C 0x0000 (.unmodelledIo 0x0C .read) = true := by decide

/-- T23. -/
theorem test_out_spl :
    does (small [(16, 0xDF)] 0 0) 0xBF0D 0x0000 (fun t => t.sp == 0xDF) = true := by decide

/-- T25. -/
theorem test_out_pinb :
    faults (small []) 0xBB06 0x0000 (.unmodelledIo 0x16 .write) = true := by decide

/-- T26. -/
theorem test_push :
    does (small [(16, 0x77)]) 0x930F 0x0000 (fun t => t.sramByte 0xDF == some 0x77 && t.sp == 0xDE) = true := by decide

/-- T28. -/
theorem test_push_register_file :
    does (small [(16, 0x77)] 0 0) 0x930F 0x0000 (fun t => t.reg 0 == 0x77 && t.sp == 0xFF) = true := by decide

/-- T27. -/
theorem test_pop :
    does (smallMem [] 0xDF 0x77 0xDE) 0x910F 0x0000 (fun t => t.reg 16 == 0x77 && t.sp == 0xDF) = true := by decide

/-- T29. -/
theorem test_pop_range :
    faults (small []) 0x910F 0x0000 (.dataAddressOutOfRange 0xE0) = true := by decide

/-- B1. -/
theorem test_sbi :
    does ((small []).setIo { IoFile.reset with portB := 1 }) 0x9AC2 0x0000 (fun t => t.io.portB == 5 && t.pc == 1) = true := by decide

/-- B2. -/
theorem test_cbi :
    does ((small []).setIo { IoFile.reset with portB := 5 }) 0x98C2 0x0000 (fun t => t.io.portB == 1) = true := by decide

/-- B3. -/
theorem test_sbr :
    does (small [(16, 0x80)] 0x21) 0x600F 0x0000 (fun t => t.reg 16 == 0x8F && t.sreg == 0x35) = true := by decide

/-- B4. -/
theorem test_cbr :
    does (small [(16, 0x8F)]) 0x7F00 0x0000 (fun t => t.reg 16 == 0x80 && t.sreg == 0x14) = true := by decide

/-- B5. -/
theorem test_lsl :
    does (small [(16, 0x81)]) 0x0F00 0x0000 (fun t => t.reg 16 == 0x02 && t.sreg == 0x19) = true := by decide

/-- B7. -/
theorem test_lsl_half_carry :
    does (small [(16, 0x08)]) 0x0F00 0x0000 (fun t => t.reg 16 == 0x10 && t.sreg == 0x20) = true := by decide

/-- B8. -/
theorem test_lsr :
    does (small [(16, 0x81)]) 0x9506 0x0000 (fun t => t.reg 16 == 0x40 && t.sreg == 0x19) = true := by decide

/-- B9. -/
theorem test_lsr_zero :
    does (small [(16, 0x01)]) 0x9506 0x0000 (fun t => t.reg 16 == 0x00 && t.sreg == 0x1B) = true := by decide

/-- B10. -/
theorem test_rol :
    does (small [(16, 0x80)] 0x01) 0x1F00 0x0000 (fun t => t.reg 16 == 0x01 && t.sreg == 0x19) = true := by decide

/-- B11. -/
theorem test_ror :
    does (small [(16, 0x01)]) 0x9507 0x0000 (fun t => t.reg 16 == 0x00 && t.sreg == 0x1B) = true := by decide

/-- B12. -/
theorem test_ror_carry :
    does (small [(16, 0x02)] 0x01) 0x9507 0x0000 (fun t => t.reg 16 == 0x81 && t.sreg == 0x0C) = true := by decide

/-- B13. -/
theorem test_asr :
    does (small [(16, 0x81)]) 0x9505 0x0000 (fun t => t.reg 16 == 0xC0 && t.sreg == 0x15) = true := by decide

/-- B15. -/
theorem test_asr_one :
    does (small [(16, 0x01)]) 0x9505 0x0000 (fun t => t.reg 16 == 0x00 && t.sreg == 0x1B) = true := by decide

/-- B16. -/
theorem test_swap :
    does (small [(16, 0xA5)] 0xFF) 0x9502 0x0000 (fun t => t.reg 16 == 0x5A && t.sreg == 0xFF) = true := by decide

/-- B17. -/
theorem test_bset :
    does (small []) 0x9468 0x0000 (fun t => t.sreg == 0x40) = true := by decide

/-- B18. -/
theorem test_bclr :
    does (small [] 0xFF) 0x9488 0x0000 (fun t => t.sreg == 0xFE) = true := by decide

/-- B19. -/
theorem test_bst :
    does (small [(16, 8)]) 0xFB03 0x0000 (fun t => t.sreg == 0x40) = true := by decide

/-- B20. -/
theorem test_bld :
    does (small [(17, 0xFE)] 0x40) 0xF910 0x0000 (fun t => t.reg 17 == 0xFF && t.sreg == 0x40) = true := by decide

/-- B21, B22. -/
theorem test_flag_words :
    ([(0x9408, 0x01), (0x9418, 0x02), (0x9428, 0x04), (0x9438, 0x08), (0x9448, 0x10), (0x9458, 0x20), (0x9468, 0x40),
      (0x9478, 0x80)] : List (Word × Byte)).all (fun c =>
        does (small []) c.1 0 (fun t => t.sreg == c.2) &&
        does (small [] 0xFF) (c.1 + 0x80) 0 (fun t => t.sreg == ~~~c.2)) = true := by decide

/-- The sixteen single-flag instructions by their own meanings. -/
theorem test_flag_meanings :
    ([(.sec, .clc, .c), (.sez, .clz, .z), (.sen, .cln, .n), (.sev, .clv, .v), (.ses, .cls, .s), (.seh, .clh, .h),
      (.setT, .clt, .t), (.sei, .cli, .i)] : List (Instr × Instr × Flag)).all (fun c =>
        (match exec c.1 (small []) with
          | .next t => t.sreg == setFlag 0 c.2.2 true && t.inhibit == (c.2.2 == .i)
          | .fault _ => false
          | .refused _ => false) &&
        (match exec c.2.1 (small [] 0xFF) with
          | .next t => t.sreg == setFlag 0xFF c.2.2 false && !t.inhibit
          | .fault _ => false
          | .refused _ => false)) = true := by decide

/-- B24. -/
theorem test_nop :
    does (small [(1, 2)] 0xFF) 0x0000 0x0000 (fun t => t == (small [(1, 2)] 0xFF).advance 1) = true := by decide

/-- B25. -/
theorem test_wdr :
    does (small [] 0xFF) 0x95A8 0x0000 (fun t => t == (small [] 0xFF).advance 1) = true := by decide

/-- B26. -/
theorem test_sleep_disabled :
    does (small []) 0x9588 0x0000 (fun t => !t.sleeping && t.pc == 1) = true := by decide

/-- B27. -/
theorem test_sleep :
    does ((small []).setIo { IoFile.reset with mcucr := 0x20 }) 0x9588 0x0000 (fun t => t.sleeping && t.pc == 1) = true := by decide

/-- A1. -/
theorem test_add :
    does (small [(16, 0x7F), (17, 0x01)]) 0x0F01 0x0000 (fun t => t.reg 16 == 0x80 && t.sreg == 0x2C) = true := by decide

/-- A3. -/
theorem test_add_carry :
    does (small [(16, 0x80), (17, 0x80)]) 0x0F01 0x0000 (fun t => t.reg 16 == 0x00 && t.sreg == 0x1B) = true := by decide

/-- A4. -/
theorem test_adc :
    does (small [(16, 0xFF), (17, 0x00)] 0x01) 0x1F01 0x0000 (fun t => t.reg 16 == 0x00 && t.sreg == 0x23) = true := by decide

/-- A5. -/
theorem test_adc_overflow :
    does (small [(16, 0x7F), (17, 0x00)] 0x01) 0x1F01 0x0000 (fun t => t.reg 16 == 0x80 && t.sreg == 0x2C) = true := by decide

/-- S1, H kept. -/
theorem test_adiw :
    does (small [(24, 0xF8), (25, 0x00)] 0x3F) 0x960D 0x0000 (fun t => t.pair 24 == 0x0105 && t.sreg == 0x20) = true := by decide

/-- A7. -/
theorem test_adiw_carry :
    does (small [(24, 0xFF), (25, 0xFF)]) 0x9601 0x0000 (fun t => t.pair 24 == 0x0000 && t.sreg == 0x03) = true := by decide

/-- A10. -/
theorem test_sub :
    does (small [(16, 0x00), (17, 0x01)]) 0x1B01 0x0000 (fun t => t.reg 16 == 0xFF && t.sreg == 0x35) = true := by decide

/-- A11. -/
theorem test_sub_overflow :
    does (small [(16, 0x80), (17, 0x01)]) 0x1B01 0x0000 (fun t => t.reg 16 == 0x7F && t.sreg == 0x38) = true := by decide

/-- A13. -/
theorem test_subi :
    does (small [(16, 0x10)]) 0x5001 0x0000 (fun t => t.reg 16 == 0x0F && t.sreg == 0x20) = true := by decide

/-- A15. -/
theorem test_sbc_keeps_z :
    does (small [(16, 0x01), (17, 0x00)] 0x03) 0x0B01 0x0000 (fun t => t.reg 16 == 0x00 && t.sreg == 0x02) = true := by decide

/-- A16. -/
theorem test_sbc_clear_z :
    does (small [(16, 0x01), (17, 0x00)] 0x01) 0x0B01 0x0000 (fun t => t.reg 16 == 0x00 && t.sreg == 0x00) = true := by decide

/-- A17. -/
theorem test_sbci :
    does (small [(16, 0x00)] 0x01) 0x4000 0x0000 (fun t => t.reg 16 == 0xFF && t.sreg == 0x35) = true := by decide

/-- A18. -/
theorem test_sbiw :
    does (small [(26, 0x00), (27, 0x00)]) 0x9711 0x0000 (fun t => t.pair 26 == 0xFFFF && t.sreg == 0x15) = true := by decide

/-- A19. -/
theorem test_sbiw_overflow :
    does (small [(26, 0x00), (27, 0x80)]) 0x9711 0x0000 (fun t => t.pair 26 == 0x7FFF && t.sreg == 0x18) = true := by decide

/-- A21. -/
theorem test_and :
    does (small [(16, 0xF0), (17, 0x3C)]) 0x2301 0x0000 (fun t => t.reg 16 == 0x30 && t.sreg == 0x00) = true := by decide

/-- A22. -/
theorem test_andi :
    does (small [(16, 0xA5)] 0x21) 0x700F 0x0000 (fun t => t.reg 16 == 0x05 && t.sreg == 0x21) = true := by decide

/-- A23. -/
theorem test_or :
    does (small [(16, 0x80), (17, 0x01)]) 0x2B01 0x0000 (fun t => t.reg 16 == 0x81 && t.sreg == 0x14) = true := by decide

/-- A24. -/
theorem test_ori :
    does (small [(16, 0x01)]) 0x6800 0x0000 (fun t => t.reg 16 == 0x81 && t.sreg == 0x14) = true := by decide

/-- A25. -/
theorem test_eor :
    does (small [(16, 0xFF), (17, 0x0F)]) 0x2701 0x0000 (fun t => t.reg 16 == 0xF0 && t.sreg == 0x14) = true := by decide

/-- A26. -/
theorem test_com :
    does (small [(16, 0x00)]) 0x9500 0x0000 (fun t => t.reg 16 == 0xFF && t.sreg == 0x15) = true := by decide

/-- A27. -/
theorem test_com_zero :
    does (small [(16, 0xFF)]) 0x9500 0x0000 (fun t => t.reg 16 == 0x00 && t.sreg == 0x03) = true := by decide

/-- A28. -/
theorem test_neg :
    does (small [(16, 0x01)]) 0x9501 0x0000 (fun t => t.reg 16 == 0xFF && t.sreg == 0x35) = true := by decide

/-- A29. -/
theorem test_neg_overflow :
    does (small [(16, 0x80)]) 0x9501 0x0000 (fun t => t.reg 16 == 0x80 && t.sreg == 0x0D) = true := by decide

/-- A31. -/
theorem test_inc :
    does (small [(24, 0x7F)]) 0x9583 0x0000 (fun t => t.reg 24 == 0x80 && t.sreg == 0x0C) = true := by decide

/-- A32. -/
theorem test_inc_keeps_carry :
    does (small [(24, 0xFF)] 0x01) 0x9583 0x0000 (fun t => t.reg 24 == 0x00 && t.sreg == 0x03) = true := by decide

/-- A33. -/
theorem test_dec :
    does (small [(16, 0x80)]) 0x950A 0x0000 (fun t => t.reg 16 == 0x7F && t.sreg == 0x18) = true := by decide

/-- A34. -/
theorem test_dec_wraps :
    does (small [(16, 0x00)]) 0x950A 0x0000 (fun t => t.reg 16 == 0xFF && t.sreg == 0x14) = true := by decide

/-- A37. -/
theorem test_tst :
    does (small [(16, 0x80)]) 0x2300 0x0000 (fun t => t.reg 16 == 0x80 && t.sreg == 0x14) = true := by decide

/-- A38. -/
theorem test_clr :
    does (small [(16, 0x12)] 0xFF) 0x2700 0x0000 (fun t => t.reg 16 == 0x00 && t.sreg == 0xE3) = true := by decide

/-- A39. -/
theorem test_ser :
    does (small [(16, 0x00)] 0x55) 0xEF0F 0x0000 (fun t => t.reg 16 == 0xFF && t.sreg == 0x55) = true := by decide

/-- J1. -/
theorem test_rjmp_self :
    does ({ small [] with pc := 0x0B }) 0xCFFF 0x0000 (fun t => t.pc == 0x0B) = true := by decide

/-- J3. -/
theorem test_rjmp_wraps :
    does (small []) 0xC7FF 0x0000 (fun t => t.pc == 0) = true := by decide

/-- J7. -/
theorem test_ijmp :
    does (small [(30, 0x23), (31, 0x05)]) 0x9409 0x0000 (fun t => t.pc == 0x123) = true := by decide

/-- J8. -/
theorem test_rcall :
    does ({ small [] with pc := 0x10 }) 0xD00F 0x0000 (fun t => t.sramByte 0xDF == some 0x11 && t.sramByte 0xDE == some 0 && t.sp == 0xDD && t.pc == 0x20) = true := by decide

/-- J12. -/
theorem test_rcall_no_stack :
    faults (small [] 0 0) 0xD004 0x0000 (.dataAddressOutOfRange 0xFF) = true := by decide

/-- J10. -/
theorem test_icall :
    does ({ small [(30, 0x20)] with pc := 0x10 }) 0x9509 0x0000 (fun t => t.sramByte 0xDF == some 0x11 && t.sp == 0xDD && t.pc == 0x20) = true := by decide

/-- J9. -/
theorem test_ret :
    does ((smallMem [] 0xDE 0 0xDD).setSram 0xDF 0x11) 0x9508 0x0000 (fun t => t.pc == 0x11 && t.sp == 0xDF) = true := by decide

/-- J11. -/
theorem test_reti :
    does ((smallMem [] 0xDE 0 0xDD).setSram 0xDF 0x11) 0x9518 0x0000 (fun t => t.pc == 0x11 && t.sp == 0xDF && t.sreg == 0x80 && t.inhibit) = true := by decide

/-- J13. -/
theorem test_cpse_skips :
    does ((small [(1, 5), (2, 5)]).storeProgWord 1 0x0000) 0x1012 0x0000 (fun t => t.pc == 2) = true := by decide

/-- J15. -/
theorem test_cpse_reserved :
    faults (small [(1, 5)]) 0x1011 0x0000 (.reservedOpcode 1 0xFFFF) = true := by decide

/-- J21. -/
theorem test_cp :
    does (small [(16, 5), (17, 0x0A)]) 0x1701 0x0000 (fun t => t.sreg == 0x35 && t.reg 16 == 5) = true := by decide

/-- J25. -/
theorem test_cpc_clears_z :
    does (small [(16, 1), (17, 0)] 0x02) 0x0701 0x0000 (fun t => t.sreg == 0) = true := by decide

/-- J22. -/
theorem test_cpi :
    does (small [(16, 0x10)]) 0x3100 0x0000 (fun t => t.sreg == 2) = true := by decide

/-- J16. -/
theorem test_sbrc_two_words :
    does (((small []).storeProgWord 1 0x9110).storeProgWord 2 0x0060) 0xFD00 0x0000 (fun t => t.pc == 3) = true := by decide

/-- J17. -/
theorem test_sbrc_not_taken :
    does (small [(16, 1)]) 0xFD00 0x0000 (fun t => t.pc == 1) = true := by decide

/-- J18. -/
theorem test_sbrs :
    does ((small [(16, 8)]).storeProgWord 1 0x0000) 0xFF03 0x0000 (fun t => t.pc == 2) = true := by decide

/-- J19. -/
theorem test_sbic :
    does ((small []).storeProgWord 1 0xC003) 0x9984 0x0000 (fun t => t.pc == 2) = true := by decide

/-- R273: the pin driven high. -/
theorem test_sbis :
    does ({ (small []).storeProgWord 1 0xC003 with pinD := PinDrive.reset.setExt 4 (some true) }) 0x9B84 0x0000 (fun t => t.pc == 2) = true := by decide

/-- J26. -/
theorem test_breq :
    does (small [] 0x02) 0xF011 0x0000 (fun t => t.pc == 3) = true := by decide

/-- J27. -/
theorem test_brne :
    does ({ small [] with pc := 0x0B }) 0xF7F1 0x0000 (fun t => t.pc == 0x0A) = true := by decide

/-- J28. -/
theorem test_breq_far :
    does (small [] 0x02) 0xF1F9 0x0000 (fun t => t.pc == 64) = true := by decide

/-- J29. -/
theorem test_brne_back :
    does ({ small [] with pc := 0x80 }) 0xF601 0x0000 (fun t => t.pc == 0x80 - 63) = true := by decide

/-- J21: after CP of 5 and $0A these branch and those do not, each by its own meaning. -/
theorem test_branches_after_cp :
    (([.brlo 4, .brlt 4, .brne 4, .brmi 4, .brcs 4, .brhs 4, .brvc 4, .brtc 4, .brid 4] : List Instr).all fun i =>
      match exec i (small [] 0x35) with
      | .next t => t.pc == 5
      | .fault _ => false
      | .refused _ => false) &&
    (([.brsh 4, .brge 4, .breq 4, .brpl 4, .brcc 4, .brhc 4, .brvs 4, .brts 4, .brie 4] : List Instr).all fun i =>
      match exec i (small [] 0x35) with
      | .next t => t.pc == 1
      | .fault _ => false
      | .refused _ => false) = true := by decide

/-- M1. -/
theorem test_movw :
    does (mega [(30, 0x34), (31, 0x12)]) 0x01CF 0x0000 (fun t => t.pair 24 == 0x1234) = true := by decide

/-- M3. -/
theorem test_lpm_z :
    does ((mega [(30, 0x21)]).storeProgWord 0x10 0x4241) 0x9104 0x0000 (fun t => t.reg 16 == 0x42 && t.ptr .z == 0x21) = true := by decide

/-- M4. -/
theorem test_lpm_z_inc :
    does ((mega [(30, 0x20)]).storeProgWord 0x10 0x4241) 0x9105 0x0000 (fun t => t.reg 16 == 0x41 && t.ptr .z == 0x21) = true := by decide

/-- M5. -/
theorem test_lpm_z_inc_undefined :
    faults (mega []) 0x91E5 0x0000 (.undefinedOperandCombination 0) = true := by decide

/-- M6. -/
theorem test_mul :
    does (mega [(16, 0xFF), (17, 0xFF)]) 0x9F01 0x0000 (fun t => t.pair 0 == 0xFE01 && t.sreg == 0x01) = true := by decide

/-- M7. -/
theorem test_mul_zero :
    does (mega [(16, 0x00), (17, 0x37)]) 0x9F01 0x0000 (fun t => t.pair 0 == 0x0000 && t.sreg == 0x02) = true := by decide

/-- M8. -/
theorem test_muls :
    does (mega [(16, 0xFF), (17, 0xFF)]) 0x0201 0x0000 (fun t => t.pair 0 == 0x0001 && t.sreg == 0x00) = true := by decide

/-- M9. -/
theorem test_muls_negative :
    does (mega [(16, 0x80), (17, 0x7F)]) 0x0201 0x0000 (fun t => t.pair 0 == 0xC080 && t.sreg == 0x01) = true := by decide

/-- M11. -/
theorem test_mulsu :
    does (mega [(16, 0xFF), (17, 0xFF)]) 0x0301 0x0000 (fun t => t.pair 0 == 0xFF01 && t.sreg == 0x01) = true := by decide

/-- M13. -/
theorem test_fmul :
    does (mega [(16, 0xFF), (17, 0xFF)]) 0x0309 0x0000 (fun t => t.pair 0 == 0xFC02 && t.sreg == 0x01) = true := by decide

/-- M14. -/
theorem test_fmuls :
    does (mega [(16, 0x80), (17, 0x80)]) 0x0381 0x0000 (fun t => t.pair 0 == 0x8000 && t.sreg == 0x00) = true := by decide

/-- M16. -/
theorem test_fmulsu :
    does (mega [(16, 0xFF), (17, 0xFF)]) 0x0389 0x0000 (fun t => t.pair 0 == 0xFE02 && t.sreg == 0x01) = true := by decide

/-- M17. -/
theorem test_jmp :
    does (mega []) 0x940C 0x0100 (fun t => t.pc == 0x100) = true := by decide

/-- M18. -/
theorem test_call :
    does ({ mega [] with pc := 0x20, sp := 0x085F }) 0x940E 0x0100 (fun t => t.sramByte 0x085F == some 0x22 && t.sramByte 0x085E == some 0 && t.sp == 0x085D && t.pc == 0x100) = true := by decide

/-- M19. -/
theorem test_skip_jmp :
    does ((mega []).storeProgWord 1 0x940C) 0xFD00 0x0000 (fun t => t.pc == 3) = true := by decide

/-- M20. -/
theorem test_spm :
    faults (mega []) 0x95E8 0x0000 (.unmodelledInstruction "SPM") = true := by decide

/-- M20. -/
theorem test_brk :
    faults (mega []) 0x9598 0x0000 (.unmodelledInstruction "BREAK") = true := by decide

/-! ## Interrupts and devices (95_test_vectors.md 2.7), one step each -/

/-- I1: the state before. -/
def pendingBoth : State :=
  { small [] 0x80 with
    pc := 0x0B
    io := { IoFile.reset with gimsk := 0x40, timsk := 0x02, gifr := 0x40, tifr := 0x02, mcucr := 0x02 } }

/-- I1: vector 1 is taken, the lowest number. -/
theorem test_interrupt_entry :
    steps pendingBoth (fun t => t.sramByte 0xDF == some 0x0B && t.sramByte 0xDE == some 0 && t.sp == 0xDD &&
      t.sreg == 0 && t.io.gifr == 0 && t.io.tifr == 2 && t.pc == 1) = true := by decide

/-- I2: with the delay set the instruction runs and the interrupt does not. -/
theorem test_interrupt_delay :
    steps { pendingBoth.storeProgWord 0x0B 0x9513 with inhibit := true }
      (fun t => t.pc == 0x0C && t.reg 17 == 1 && !t.inhibit && t.deliverable == some (1, .int0)) = true := by decide

/-- I4: the low level is a request without a flag. -/
theorem test_low_level :
    steps { pendingBoth with io := { IoFile.reset with gimsk := 0x40 } } (fun t => t.pc == 1 && t.io.gifr == 0) = true := by
  decide

/-- I5: a flag is cleared by writing 1. -/
theorem test_flag_clear :
    does (small [(16, 0x40)] |>.setIo { IoFile.reset with gifr := 0xC0 }) 0xBF0A 0 (fun t => t.io.gifr == 0x80) = true := by
  decide

/-- I6: asleep, a step with no event changes nothing; a tick that overflows and a step wake the core. -/
theorem test_sleep_and_wake :
    let s : State := { small [] 0x80 with
      pc := 0x15, sleeping := true
      io := { IoFile.reset with mcucr := 0x20, timsk := 2, tccr0 := 1, tcnt0 := 0xFF } }
    steps s (fun t => t == s) &&
    steps { s with inputs := [[.tick0]] }
      (fun t => !t.sleeping && t.pc == 6 && t.io.tcnt0 == 0 && t.io.tifr == 0 && t.sramByte 0xDF == some 0x15) = true := by
  decide

/-- I7: the implemented bits. -/
theorem test_masks :
    ([(0x3B, 0xC0), (0x39, 0xCA), (0x35, 0x3F), (0x33, 0x07), (0x2F, 0xC3), (0x2E, 0xCF), (0x11, 0x7F), (0x12, 0x7F)] :
      List (IoAddr × Byte)).all (fun c =>
        match (small []).ioWrite c.1 0xFF with
        | .ok t =>
          match t.ioRead c.1 with
          | .ok v => v == c.2
          | .error _ => false
        | .error _ => false) = true := by decide

/-- I8: a pin made an output raises the interrupt in software. -/
theorem test_software_interrupt :
    let s := ((small []).setIo { IoFile.reset with ddrD := 4, portD := 4, mcucr := 2 }).pinsChanged
    does s 0x9892 0 (fun t => t.io.portD == 0 && t.io.gifr == 0x40) = true := by decide

/-- I9, I10: falling edges on PD4 count, and the step to 0 sets TOV0. -/
theorem test_timer0_edges :
    let s := { (small []).setIo { IoFile.reset with tccr0 := 6, tcnt0 := 0xFE } with
      pinD := PinDrive.reset.setExt 4 (some true), prev := 0x10 }
    let t := s.eventList [.drive .d 4 (some false), .drive .d 4 (some true), .drive .d 4 (some false)]
    (t.io.tcnt0 == 0 && t.io.tifr == 2) = true := by decide

/-- I11: a rising edge on PD5 steps TCNT1 from $FFFF to 0. -/
theorem test_timer1_edge :
    let s := (small []).setIo { IoFile.reset with tccr1b := 7, tcnt1 := 0xFFFF }
    let t := s.event (.drive .d 5 (some true))
    (t.io.tcnt1 == 0 && t.io.tifr == 0x80) = true := by decide

/-- I12: a write of TCNT0 sets no flag. -/
theorem test_timer_write :
    does ((small []).setIo { IoFile.reset with tcnt0 := 0xFF }) 0xBF02 0 (fun t => t.io.tcnt0 == 0 && t.io.tifr == 0) = true := by
  decide

/-- I13: interrupt entry with SP never set. -/
theorem test_interrupt_no_stack :
    stepFaults { pendingBoth with sp := 0 } (.dataAddressOutOfRange 0xFF) = true := by decide

/-- S3: PB1 and PB0 read 1 by their pull-ups. -/
theorem test_pull_up :
    ((small []).setIo { IoFile.reset with portB := 3, ddrB := 4 }).ioRegRead .pinB = 3 := by decide

/-! ## Fetch, step, the two interface functions -/

theorem test_erased_flash : stepFaults State.reset (.reservedOpcode 0 0xFFFF) = true := by decide

theorem test_fetch_above_flash :
    stepFaults { State.reset with cfg := { Config.p2313 with flashWords := 1000 }, pc := 1000 }
      (.progAddressOutOfRange 2000) = true := by decide

set_option maxRecDepth 4000 in
theorem test_with_fetch_word :
    steps (State.reset.withFetchWord 16 0xE003) (fun t => t.reg 16 == 3 && t.pc == 1) = true ∧
    steps (State.reset.withFetchWord 32 0x0005E100) (fun t => t.reg 16 == 0x10) = true ∧
    steps (State.reset.withFetchWord 32 0x0100940C) (fun t => t.pc == 0x100) = true := by decide

/-! ## Clocks and the assembler (70_reset_and_hazards.md R394; 30_encoding.md R119) -/

theorem test_clocks :
    clocksD0 (.add 1 2) = .always 1 ∧ clocksD0 .lpm = .always 3 ∧ clocksD0 (.rjmp 0) = .always 2 ∧
    clocksD0 (.breq 0) = .branch ∧ clocksD0 .ret = .always 4 := by decide

/-- The functions of R119, on numbers whose bytes differ. -/
theorem test_assembler_functions :
    AsmFn.apply 0x123456 .low = some 0x56 ∧ AsmFn.apply 0x123456 .high = some 0x34 ∧
    AsmFn.apply 0x123456 .byte2 = some 0x34 ∧ AsmFn.apply 0x023456 .page = some 2 ∧
    AsmFn.apply 0x12345678 .byte3 = some 0x34 ∧ AsmFn.apply 0x12345678 .byte4 = some 0x12 ∧
    AsmFn.apply 0x12345678 .lwrd = some 0x5678 ∧ AsmFn.apply 0x12345678 .hwrd = some 0x1234 ∧
    AsmFn.apply 3 .exp2 = some 8 ∧ AsmFn.apply 17 .log2 = some 4 :=
  ⟨rfl, rfl, rfl, rfl, rfl, rfl, rfl, rfl, rfl, by decide⟩

/-! ## States that meet the hypotheses of the statements -/

/-- A step answers a next state. -/
def goes (s : State) : Bool := steps s fun _ => true

/-- A state whose next instruction is the word, on either profile. -/
def before (s : State) (w w1 : Word) : State := (s.storeProgWord s.pc.toNat w).storeProgWord (s.pcPlus 1).toNat w1

theorem witness_decode_encode :
    (Instr.ldi 16 3).wf = true ∧ (Instr.ldi 16 3).onProfile .p2313 = true ∧ (Instr.call 0x3FFFFF).wf = true ∧
    (Instr.call 0x3FFFFF).onProfile .pmega = true ∧ (Instr.call 0).onProfile .p2313 = false ∧
    (Instr.movw 0 30).wf = true ∧ (Instr.movw 0 30).onProfile .p2313 = false := by decide

theorem witness_encode_decode :
    decode .p2313 0xE003 0 = .ok (.ldi 16 3) ∧ decode .p2313 0x9100 0x60 = .ok (.lds 16 0x60) := ⟨rfl, rfl⟩

/-- A one-word instruction, and a two-word one at FLASHEND whose second word is at 0. -/
theorem witness_step_runs :
    (let s := before (small []) 0xE003 0
     s.takeInputs.deliverable = none ∧ s.takeInputs.sleeping = false ∧ s.takeInputs.pc.toNat < s.takeInputs.cfg.flashWords ∧
       decode? .p2313 (s.takeInputs.progWord 0) 0 = some (.ldi 16 3)) ∧
    (let s := before { small [] with pc := 0x3FF } 0x9100 0x60
     s.takeInputs.deliverable = none ∧ s.takeInputs.pc.toNat < s.takeInputs.cfg.flashWords ∧
       wordLength .p2313 (s.takeInputs.progWord 0x3FF) = 2 ∧ (s.takeInputs.pcPlus 1).toNat = 0 ∧
       decode? .p2313 (s.takeInputs.progWord 0x3FF) (s.takeInputs.progWord 0) = some (.lds 16 0x60)) := by decide

/-- Also the step StepKeepsProgramMemory speaks of. -/
theorem witness_step_invariant :
    let s := before (small [(16, 0x77)]) 0x930F 0
    s.wf = true ∧ goes s = true := by decide

theorem witness_unmodelled_instruction :
    stepFaults (before (mega []) 0x95E8 0) (.unmodelledInstruction "SPM") = true ∧
    stepFaults (before (mega []) 0x9598 0) (.unmodelledInstruction "BREAK") = true := by decide

/-- The first PC above program memory, a reserved word at its last, and a two-word instruction there. -/
theorem witness_fetch_faults :
    (let s : State := { State.reset with cfg := { Config.p2313 with flashWords := 1000 }, pc := 1000 }
     s.takeInputs.deliverable = none ∧ s.takeInputs.sleeping = false ∧ s.takeInputs.cfg.flashWords ≤ s.takeInputs.pc.toNat) ∧
    (let s : State := { State.reset with pc := 0x3FF }
     s.takeInputs.deliverable = none ∧ s.takeInputs.pc.toNat < s.takeInputs.cfg.flashWords ∧
       isReserved .p2313 (s.takeInputs.progWord 0x3FF) = true) ∧
    (let s := before { State.reset with cfg := { Config.p2313 with flashWords := 1000 }, pc := 999 } 0x9100 0
     s.takeInputs.deliverable = none ∧ s.takeInputs.sleeping = false ∧
       s.takeInputs.pc.toNat < s.takeInputs.cfg.flashWords ∧ wordLength .p2313 (s.takeInputs.progWord 999) = 2 ∧
       s.takeInputs.cfg.flashWords ≤ (s.takeInputs.pcPlus 1).toNat) := by decide

/-- The ends of every region: $1F, $20, $5F, $60, $DF, $E0; and $60 below an SRAM that starts at $100. -/
theorem witness_data_space :
    let s := smallMem [] 0x60 7
    (0x1F : Word).toNat = (31 : Reg).val ∧ (0x20 : Word).toNat = (0 : IoAddr).toNat + 0x20 ∧
    (0x5F : Word).toNat = (0x3F : IoAddr).toNat + 0x20 ∧ s.sramAt 0x60 = true ∧ s.sramByte 0x60 = some 7 ∧
    s.sramAt 0xDF = true ∧ s.sramByte 0xDF = none ∧ 0x60 ≤ (0xE0 : Word).toNat ∧
    s.cfg.ramend.toNat < (0xE0 : Word).toNat ∧
    (0x60 : Word).toNat < ({ Config.pmega with sramStart := 0x100 } : Config).sramStart.toNat := by decide

theorem witness_io_space :
    (∃ t, exec (.inPort 16 0x3F) (small []) = .next t) ∧ (∃ t, exec (.outPort 0x3F 16) (small []) = .next t) ∧
    (0x5F : Word).toNat = (0x3F : IoAddr).toNat + 0x20 ∧
    lowIoAddr 0x18 = 0x18 ∧ (0x38 : Word).toNat = (0x18 : IoAddr).toNat + 0x20 ∧ (small []).memRead 0x38 = .ok 0 ∧
    (∀ n : BitNo, byteBit 0x80 n = if n = 7 then true else byteBit 0 n) ∧
    (∃ u, (small []).memWrite 0x38 0x80 = .ok u) ∧ (small []).cfg.pcw ≤ 16 :=
  ⟨⟨_, rfl⟩, ⟨_, rfl⟩, rfl, rfl, rfl, rfl, by decide, ⟨_, rfl⟩, by decide⟩

theorem witness_io_read_back :
    (small []).wf = true ∧ (mega []).wf = true ∧ (mega []).cfg.spw = 16 ∧
    ([.sreg, .spl, .sph, .gimsk, .gifr, .timsk, .tifr, .mcucr, .tccr0, .tcnt0, .tccr1a, .tccr1b, .tcnt1h, .tcnt1l,
      .ocr1ah, .ocr1al, .icr1h, .icr1l, .portB, .ddrB, .portD, .ddrD] : List IoReg).all
      (fun r => ((mega []).ioRegWrite 0xFF r).isSome) = true := by decide

theorem witness_unmodelled_io :
    (small []).cfg.ioMap = Config.p2313IoMap ∧
    (([0x00, 0x0C, 0x3E] : List IoAddr).all fun p => !(Config.p2313IoMap.map (·.2)).contains p) = true ∧
    (([0x00, 0x0F, 0x1F] : List (BitVec 5)).all fun q => !(Config.p2313IoMap.map (·.2)).contains (lowIoAddr q)) = true := by
  decide

/-- Addresses that read and addresses that fault, through a pointer, a displacement that wraps, and directly. -/
theorem witness_plain_loads :
    let s := smallMem [(26, 0xDF), (28, 0xFF), (29, 0xFF), (30, 0xE0)] 0xDF 9
    s.memRead (s.ptr .x) = .ok 9 ∧ s.memRead (s.ptr .z) = .error (.dataAddressOutOfRange 0xE0) ∧
    (62 : Word).toNat = ((s.ptr .y).toNat + (63 : BitVec 6).toNat) % 0x10000 ∧
    s.memRead 62 = .error (.unmodelledIo 30 .read) ∧ s.memRead 0x1F = .ok 0 := ⟨rfl, rfl, rfl, rfl, rfl⟩

theorem witness_post_increment_loads :
    let s := smallMem [(26, 0x60), (28, 0xFF), (29, 0xFF), (30, 0x1F)] 0x60 9
    Ptr.x.holds 25 = false ∧ Ptr.y.holds 27 = false ∧ Ptr.z.holds 29 = false ∧ s.memRead (s.ptr .x) = .ok 9 ∧
    s.memRead (s.ptr .y) = .error (.dataAddressOutOfRange 0xFFFF) ∧ s.memRead (s.ptr .z) = .ok 0 :=
  ⟨rfl, rfl, rfl, rfl, rfl, rfl⟩

theorem witness_pre_decrement_loads :
    let s := smallMem [(26, 0x61), (30, 0x20)] 0x60 9
    Ptr.x.holds 28 = false ∧ Ptr.y.holds 30 = false ∧ Ptr.z.holds 0 = false ∧
    (0x60 : Word).toNat = ((s.ptr .x).toNat + 0xFFFF) % 0x10000 ∧ (s.setPtr .x 0x60).memRead 0x60 = .ok 9 ∧
    (0xFFFF : Word).toNat = ((s.ptr .y).toNat + 0xFFFF) % 0x10000 ∧
    (s.setPtr .y 0xFFFF).memRead 0xFFFF = .error (.dataAddressOutOfRange 0xFFFF) ∧
    (0x1F : Word).toNat = ((s.ptr .z).toNat + 0xFFFF) % 0x10000 ∧ (s.setPtr .z 0x1F).memRead 0x1F = .ok 0 :=
  ⟨rfl, rfl, rfl, rfl, rfl, rfl, rfl, rfl, rfl⟩

/-- An SRAM address, a register's, an I/O register's, and one that faults. -/
theorem witness_plain_stores :
    let s := small [(26, 0x60), (28, 0x1F), (30, 0x38)]
    s.sramAt (s.ptr .x) = true ∧ (s.ptr .y).toNat = (31 : Reg).val ∧
    (s.ptr .z).toNat = (0x18 : IoAddr).toNat + 0x20 ∧ (∃ u, s.ioWrite 0x18 (s.reg 1) = .ok u) ∧
    s.memWrite 0xE0 (s.reg 1) = .error (.dataAddressOutOfRange 0xE0) ∧
    (0xDF : Word).toNat = ((0xA0 : Word).toNat + (63 : BitVec 6).toNat) % 0x10000 :=
  ⟨rfl, rfl, rfl, ⟨_, rfl⟩, rfl, rfl⟩

theorem witness_post_increment_stores :
    let s := small [(26, 0x60), (28, 0x1F), (30, 0x38)]
    Ptr.x.holds 25 = false ∧ Ptr.x.holdsAddr (s.ptr .x) = false ∧ s.sramAt (s.ptr .x) = true ∧
    Ptr.y.holds 27 = false ∧ Ptr.y.holdsAddr (s.ptr .y) = false ∧ (s.ptr .y).toNat = (31 : Reg).val ∧
    Ptr.z.holds 29 = false ∧ Ptr.z.holdsAddr (s.ptr .z) = false ∧
    (s.ptr .z).toNat = (0x18 : IoAddr).toNat + 0x20 ∧ (∃ u, s.ioWrite 0x18 (s.reg 29) = .ok u) ∧
    (small [(26, 0xE0)]).memWrite 0xE0 0 = .error (.dataAddressOutOfRange 0xE0) :=
  ⟨rfl, rfl, rfl, rfl, rfl, rfl, rfl, rfl, rfl, ⟨_, rfl⟩, rfl⟩

theorem witness_pre_decrement_stores :
    let s := small [(26, 0xE0), (28, 0x1A), (30, 0x39)]
    (0xDF : Word).toNat = ((s.ptr .x).toNat + 0xFFFF) % 0x10000 ∧ s.sramAt 0xDF = true ∧
    Ptr.x.holdsAddr 0xDF = false ∧ (0x19 : Word).toNat = ((s.ptr .y).toNat + 0xFFFF) % 0x10000 ∧
    Ptr.y.holdsAddr 0x19 = false ∧ (0x19 : Word).toNat = (25 : Reg).val ∧
    (0x38 : Word).toNat = ((s.ptr .z).toNat + 0xFFFF) % 0x10000 ∧
    (∃ t, (s.setPtr .z 0x38).ioWrite 0x18 (s.reg 1) = .ok t) ∧
    ((small []).setPtr .x 0xFFFF).memWrite 0xFFFF 0 = .error (.dataAddressOutOfRange 0xFFFF) :=
  ⟨rfl, rfl, rfl, rfl, rfl, rfl, rfl, ⟨_, rfl⟩, rfl⟩

/-- Pointers at both ends of each clause. -/
theorem witness_undefined_operands :
    (small [(26, 0x1A)]).ptr .x = 0x1A ∧ (small [(26, 0x1B)]).ptr .x = 0x1B ∧ (small [(26, 0x1C)]).ptr .x = 0x1C ∧
    (small [(28, 0x1C)]).ptr .y = 0x1C ∧ (small [(28, 0x1D)]).ptr .y = 0x1D ∧ (small [(28, 0x1E)]).ptr .y = 0x1E ∧
    (small [(30, 0x1E)]).ptr .z = 0x1E ∧ (small [(30, 0x1F)]).ptr .z = 0x1F ∧ (small [(30, 0x20)]).ptr .z = 0x20 := by
  decide

/-- The last byte of program memory and the first address above it. -/
theorem witness_program_memory :
    (let s := small [(30, 0xFF), (31, 0x07)]
     (s.ptr .z).toNat = 0x7FF ∧ (s.ptr .z).toNat / 2 < s.cfg.flashWords) ∧
    (let s := small [(31, 0x08)]
     s.cfg.flashWords ≤ (s.ptr .z).toNat / 2) := by decide

theorem witness_port_transfers :
    (small []).ioRegAt 0x3F = some .sreg ∧ (small []).ioRegAt 0x18 = some .portB ∧
    (∃ u, (small []).ioRegWrite ((small []).reg 16) .portB = some u) := ⟨rfl, rfl, ⟨_, rfl⟩⟩

/-- A stack at both ends of the SRAM, in the register file, in the I/O block, and where it faults; a POP that reads
and one that faults. -/
theorem witness_push_pop :
    (small [] 0 0x60).sramAt 0x60 = true ∧ (small [] 0 0xDF).sramAt 0xDF = true ∧
    (small [] 0 0x1F).sp.toNat = (31 : Reg).val ∧ (small [] 0 0x38).sp.toNat = (0x18 : IoAddr).toNat + 0x20 ∧
    (∃ w, (small [] 0 0x38).ioWrite 0x18 0 = .ok w) ∧
    (small [] 0 0xE0).memWrite 0xE0 0 = .error (.dataAddressOutOfRange 0xE0) ∧
    (let u := (smallMem [] 0xDF 5 0xDE).setSp 0xDF
     u.memRead u.sp = .ok 5) ∧
    (let u := (small [] 0 0xDF).setSp 0xE0
     u.memRead u.sp = .error (.dataAddressOutOfRange 0xE0)) :=
  ⟨rfl, rfl, rfl, rfl, ⟨_, rfl⟩, rfl, rfl, rfl⟩

theorem witness_push_then_pop :
    (small [] 0 0x60).wf = true ∧ (small [] 0 0x60).sramAt 0x60 = true ∧ (small [] 0 0xDF).wf = true ∧
    (small [] 0 0xDF).sramAt 0xDF = true := by decide

theorem witness_subtractions :
    let s := small [(17, 3)] 0x03
    (Instr.sub 16 17 = .sub 16 17 ∧ s.reg 17 = 3) ∧ (Instr.subi 16 1 = .subi 16 1) ∧
    (Instr.sbc 16 17 = .sbc 16 17 ∧ s.flag .c = true ∧ s.flag .z = true) ∧ (Instr.sbci 16 0 = .sbci 16 0) := by decide

theorem witness_comparisons :
    let s := small [(16, 0), (17, 1)] 0x03
    ((0xFF : Byte).toNat : Int) = ((s.reg 16).toNat - (s.reg 17).toNat - false.toNat : Int) % 256 ∧
    ((0xFE : Byte).toNat : Int) = ((s.reg 16).toNat - (s.reg 17).toNat - (s.flag .c).toNat : Int) % 256 := by decide

theorem witness_compare_then_branch :
    (small []).cfg.pcw ≤ 16 ∧ ∃ t, exec (.cp 16 17) (small [(16, 0x80), (17, 1)]) = .next t := ⟨by decide, _, rfl⟩

theorem witness_word_arithmetic :
    (0xFFFF : Word) = (small [(24, 0xFF), (25, 0xFF)]).pair 24 := by decide

theorem witness_one_operand : (0x80 : Byte) = (small [(16, 0x80)]).reg 16 := by decide

theorem witness_flag_helpers :
    (0x00 : Byte) = 0xFF + 0 + (if true then 1 else 0) ∧ (0xFE : Byte) = 0xFF - 0 - (if true then 1 else 0) := by decide

theorem witness_multi_byte :
    let s := small [(24, 0x00), (25, 0x80), (22, 1), (23, 0)]
    (24 : Reg) ≠ 25 ∧ (24 : Reg) ≠ 23 ∧ 0x8000 = (s.reg 25).toNat * 256 + (s.reg 24).toNat ∧
    1 = (s.reg 23).toNat * 256 + (s.reg 22).toNat := by decide

/-- For $81 with C set: every clause's result and bit shifted out. -/
theorem witness_shifts :
    let v : Byte := (small [(16, 0x81)] 1).reg 16
    let c := (small [(16, 0x81)] 1).flag .c
    (0x02 : Byte).toNat = v.toNat * 2 % 256 ∧ (0x03 : Byte).toNat = (v.toNat * 2 + c.toNat) % 256 ∧
    true = decide (128 ≤ v.toNat) ∧ (0x40 : Byte).toNat = v.toNat / 2 ∧
    (0xC0 : Byte).toNat = v.toNat / 2 + 128 * c.toNat ∧ (0xC0 : Byte).toInt = v.toInt / 2 ∧
    true = decide (v.toNat % 2 = 1) := by decide

theorem witness_port_bits :
    (small []).ioRegAt (lowIoAddr 0x18) = some .portB ∧ (small []).ioRegAt (lowIoAddr 0x17) = some .ddrB ∧
    (small []).ioRegAt (lowIoAddr 0x12) = some .portD ∧
    (∀ n : BitNo, byteBit 0x80 n = if n = 7 then true else byteBit ((small []).ioRegRead .portD) n) ∧
    ((small []).ioRegWrite 0x80 .portD).isSome = true := by decide

theorem witness_sleep :
    byteBit (small []).io.mcucr 5 = false ∧
    byteBit ((small []).setIo { IoFile.reset with mcucr := 0x20 }).io.mcucr 5 = true := by decide

theorem witness_branches_and_jumps :
    (small []).cfg.pcw ≤ 16 ∧ ({ Config.pmega with pcw := 16 } : Config).pcw ≤ 16 := by decide

/-- Stacks at both ends of the SRAM; also what CallThenReturn asks. -/
theorem witness_calls :
    (let s := small []
     s.cfg.pcw ≤ 16 ∧ s.wf = true ∧ s.sramAt s.sp = true ∧ s.sramAt s.spBelow = true) ∧
    (let s := small [] 0 0x61
     s.wf = true ∧ s.sramAt s.sp = true ∧ s.sramAt s.spBelow = true ∧ s.spBelow = 0x60) := by decide

/-- A push of an address that faults at the first write, one that faults at the second, and one into the I/O block. -/
theorem witness_calls_elsewhere :
    (small [] 0 0xE0).memWrite 0xE0 1 = .error (.dataAddressOutOfRange 0xE0) ∧
    (∃ v, (small [] 0 0).memWrite 0 1 = .ok v ∧
      (v.setSp (v.sp - 1)).memWrite (v.setSp (v.sp - 1)).sp 0 = .error (.dataAddressOutOfRange 0xFF)) ∧
    (∃ v x, (small [] 0 0x38).memWrite 0x38 1 = .ok v ∧
      (v.setSp (v.sp - 1)).memWrite (v.setSp (v.sp - 1)).sp 0 = .ok x) :=
  ⟨rfl, ⟨_, rfl, rfl⟩, ⟨_, _, rfl, rfl⟩⟩

/-- A return that completes, one that faults at the first read, and one that faults at the second. -/
theorem witness_returns :
    (let s := (smallMem [] 0xDE 1 0xDD).setSram 0xDF 0x11
     let u := s.setSp (s.sp + 1)
     let w := u.setSp (u.sp + 1)
     u.memRead u.sp = .ok 1 ∧ w.memRead w.sp = .ok 0x11 ∧ s.cfg.pcw ≤ 16) ∧
    (let s := small []
     let u := s.setSp (s.sp + 1)
     u.memRead u.sp = .error (.dataAddressOutOfRange 0xE0)) ∧
    (let s := smallMem [] 0xDF 0 0xDE
     let u := s.setSp (s.sp + 1)
     let w := u.setSp (u.sp + 1)
     u.memRead u.sp = .ok 0 ∧ w.memRead w.sp = .error (.dataAddressOutOfRange 0xE0)) :=
  ⟨⟨rfl, rfl, by decide⟩, rfl, rfl, rfl⟩

/-- Words to skip of one and of two words, a reserved one, and none left. -/
theorem witness_skips :
    let s := (small []).storeProgWord 1 0x0000
    let u := (small []).storeProgWord 1 0x9110
    s.fetchWord (s.pcPlus 1) = .ok 0 ∧ decode .p2313 0 0 = .ok .nop ∧ u.fetchWord (u.pcPlus 1) = .ok 0x9110 ∧
    decode .p2313 0x9110 0 = .ok (.lds 17 0) ∧ (small []).fetchWord 1 = .ok 0xFFFF ∧
    isReserved .p2313 0xFFFF = true ∧ s.ioRegAt (lowIoAddr 0x10) = some .pinD := ⟨rfl, rfl, rfl, rfl, rfl, rfl, rfl⟩

theorem witness_skip_above_flash :
    let s : State := { State.reset with cfg := { Config.p2313 with flashWords := 1000 }, pc := 999 }
    s.cfg.flashWords ≤ (s.pcPlus 1).toNat ∧ s.cfg.pcw ≤ 16 := by decide

/-- A state with I = 1 and these masks, flags and sense bits. -/
def requesting (gimsk gifr timsk tifr mcucr : Byte) : State :=
  (small [] 0x80).setIo { IoFile.reset with gimsk := gimsk, gifr := gifr, timsk := timsk, tifr := tifr, mcucr := mcucr }

/-- Every source that can be taken: INT0 by level and by edge, INT1, and the four of the timers. -/
theorem witness_interrupt_entry :
    (requesting 0x40 0 0 0 0).takeInputs.deliverable = some (1, .int0) ∧
    (requesting 0x40 0x40 0 0 2).takeInputs.deliverable = some (1, .int0) ∧
    (requesting 0x80 0x80 0 0 8).takeInputs.deliverable = some (2, .int1) ∧
    (requesting 0 0 0xCA 0x08 0).takeInputs.deliverable = some (3, .icp1) ∧
    (requesting 0 0 0xCA 0x42 0).takeInputs.deliverable = some (4, .oc1) ∧
    (requesting 0 0 0xCA 0x82 0).takeInputs.deliverable = some (5, .ovf1) ∧
    (requesting 0 0 0xCA 0x02 0).takeInputs.deliverable = some (6, .ovf0) ∧
    (requesting 0x40 0 0 0 0).sramAt 0xDF = true ∧ (requesting 0x40 0 0 0 0).sramAt (requesting 0x40 0 0 0 0).spBelow = true := by
  decide

/-- Entry with a stack that faults at the first push and one that faults at the second. -/
theorem witness_interrupt_no_stack :
    (let s : State := { requesting 0 0 2 2 0 with sp := 0xE0 }
     s.takeInputs.deliverable = some (6, .ovf0) ∧ stepFaults s (.dataAddressOutOfRange 0xE0) = true) ∧
    (let s : State := { requesting 0 0 2 2 0 with sp := 0 }
     s.takeInputs.deliverable = some (6, .ovf0) ∧ stepFaults s (.dataAddressOutOfRange 0xFF) = true) := by decide

/-- Also the delivered interrupt InterruptPriority speaks of. -/
theorem witness_interrupt_sources :
    (requesting 0 0 2 2 0).cfg = Config.p2313 ∧ (requesting 0 0 2 2 0).deliverable = some (6, .ovf0) := by decide

/-- Each clause: SEI with I = 0, RETI, SEI with I = 1, and NOP at the PC. -/
theorem witness_interrupt_delay :
    (∃ t, exec .sei (small []) = .next t) ∧ (small []).flag .i = false ∧
    (∃ t, exec .reti ((smallMem [] 0xDE 0 0xDD).setSram 0xDF 0x11) = .next t) ∧
    (∃ t, exec .sei (small [] 0x80) = .next t) ∧ (small [] 0x80).inhibit = false ∧ (small [] 0x80).flag .i = true ∧
    (let s := before { small [] 0x80 with inhibit := true } 0x0000 0
     s.takeInputs.deliverable = none ∧ s.takeInputs.sleeping = false ∧ s.takeInputs.fetch = .ok .nop ∧
       goes s = true) := ⟨⟨_, rfl⟩, rfl, ⟨_, rfl⟩, ⟨_, rfl⟩, rfl, rfl, rfl, rfl, rfl, rfl⟩

/-- Asleep with nothing to take; asleep with an interrupt; asleep with I = 0 and a tick to come. -/
theorem witness_sleeping :
    (let s : State := { small [] with sleeping := true }
     s.takeInputs.sleeping = true ∧ s.takeInputs.deliverable = none) ∧
    (let s : State := { requesting 0 0 2 2 0 with sleeping := true }
     s.takeInputs.deliverable.isSome = true ∧ goes s = true) ∧
    (let s : State := { small [] with sleeping := true, inputs := [[.tick0]] }
     s.sleeping = true ∧ s.flag .i = false ∧ ∀ b ∈ s.inputs, EnvEvent.reset ∉ b) := by decide

/-- Clock selects at the ends of each clause: 0, 1, 5, 6. -/
theorem witness_timer_ticks :
    (([0, 1, 5, 6] : List Byte).all fun v =>
      ((small []).setIo { IoFile.reset with tccr0 := v, tccr1b := v }).io.tccr0.toNat % 8 == v.toNat &&
      ((small []).setIo { IoFile.reset with tccr0 := v, tccr1b := v }).io.tccr1b.toNat % 8 == v.toNat) = true := by decide

/-- A schedule with nothing, and one with two boundaries, of which the first drives a pin and ticks. -/
theorem witness_schedule :
    (small []).inputs = [] ∧
    (let s : State := { (small []).setIo { IoFile.reset with tccr0 := 1 } with inputs := [[.drive .d 2 (some true), .tick0], []] }
     s.inputs = [.drive .d 2 (some true), .tick0] :: [[]] ∧ s.takeInputs.inputs = [[]] ∧
       s.takeInputs.io.tcnt0 = 1 ∧ s.takeInputs.prev = 4) := by decide

/-- Edges of PD2 and PD4 under sense controls and clock selects that ask for them. -/
theorem witness_pin_edges :
    (let s := { (small []).setIo { IoFile.reset with mcucr := 2, tccr0 := 6 } with prev := 0x14 }
     s.io.mcucr.toNat / 4 ^ 0 % 4 = 2 ∧ byteBit s.prev 2 = true ∧ byteBit (s.levelsD &&& 0x3C) 2 = false ∧
       s.io.tccr0.toNat % 8 = 6 ∧ byteBit s.prev 4 = true ∧ byteBit (s.levelsD &&& 0x3C) 4 = false ∧
       (s.setIo { s.io with tcnt0 := 0xFF }).pinsChanged.io.tifr = 2) ∧
    (let s := { (small []).setIo { IoFile.reset with mcucr := 0x0C, tccr1b := 7 } with
       pinD := (PinDrive.reset.setExt 3 (some true)).setExt 5 (some true) }
     s.io.mcucr.toNat / 4 ^ 1 % 4 = 3 ∧ byteBit s.prev 3 = false ∧ byteBit (s.levelsD &&& 0x3C) 3 = true ∧
       s.io.tccr1b.toNat % 8 = 7 ∧ byteBit s.prev 5 = false ∧ byteBit (s.levelsD &&& 0x3C) 5 = true) := by decide

end Sys2Proof.Tests
end

section
/-! SUPPORT. The invariant `State.wf` under each update of the state and each shared operation, and from these
under the environment's events, every instruction and every step. -/

namespace Sys2Proof.Machine

/-! ## Bytes with reserved bits -/

/-- Every bit of `v` outside the mask `m` is 0 (10_state.md R44). -/
def BitsIn (v m : Byte) : Prop := v &&& m = v

theorem byteBit_and (v w : Byte) (n : BitNo) : byteBit (v &&& w) n = (byteBit v n && byteBit w n) := by
  simp [byteBit]

theorem bitsIn_iff {v m : Byte} : BitsIn v m ↔ ∀ n : BitNo, byteBit v n = true → byteBit m n = true := by
  constructor
  · intro h n hn
    have hb := congrArg (byteBit · n) h
    simpa [byteBit_and, hn] using hb
  · intro h
    refine byte_ext fun n => ?_
    cases hn : byteBit v n with
    | false => simp [byteBit_and, hn]
    | true => simp [byteBit_and, hn, h n hn]

theorem bitsIn_and_mask (v m : Byte) : BitsIn (v &&& m) m := by
  simp [BitsIn, BitVec.and_assoc]

/-- A register cleared where a written byte has ones keeps its reserved bits 0. -/
theorem BitsIn.and {v m : Byte} (h : BitsIn v m) (w : Byte) : BitsIn (v &&& w) m := by
  refine bitsIn_iff.mpr fun n hn => bitsIn_iff.mp h n ?_
  simp only [byteBit_and, Bool.and_eq_true] at hn
  exact hn.1

/-- Writing a bit that is not reserved keeps the reserved bits 0. -/
theorem BitsIn.set {v m : Byte} (h : BitsIn v m) {n : BitNo} (hn : byteBit m n = true) (b : Bool) :
    BitsIn (setByteBit v n b) m := by
  refine bitsIn_iff.mpr fun k hk => ?_
  by_cases hkn : k = n
  · exact hkn ▸ hn
  · exact bitsIn_iff.mp h k (by simpa [hkn] using hk)

/-! ## The invariant's parts -/

/-- `IoFile.wf` by register: the bits of each that are not reserved (10_state.md R36 to R43). -/
structure IoFile.Masked (io : IoFile) : Prop where
  gimsk : BitsIn io.gimsk 0xC0
  gifr : BitsIn io.gifr 0xC0
  timsk : BitsIn io.timsk 0xCA
  tifr : BitsIn io.tifr 0xCA
  mcucr : BitsIn io.mcucr 0x3F
  tccr0 : BitsIn io.tccr0 0x07
  tccr1a : BitsIn io.tccr1a 0xC3
  tccr1b : BitsIn io.tccr1b 0xCF
  portD : BitsIn io.portD 0x7F
  ddrD : BitsIn io.ddrD 0x7F

theorem IoFile.wf_iff {io : IoFile} : io.wf = true ↔ io.Masked := by
  simp only [IoFile.wf, Bool.and_eq_true, beq_iff_eq]
  constructor
  · rintro ⟨⟨⟨⟨⟨⟨⟨⟨⟨h1, h2⟩, h3⟩, h4⟩, h5⟩, h6⟩, h7⟩, h8⟩, h9⟩, h10⟩
    exact ⟨h1, h2, h3, h4, h5, h6, h7, h8, h9, h10⟩
  · rintro ⟨h1, h2, h3, h4, h5, h6, h7, h8, h9, h10⟩
    exact ⟨⟨⟨⟨⟨⟨⟨⟨⟨h1, h2⟩, h3⟩, h4⟩, h5⟩, h6⟩, h7⟩, h8⟩, h9⟩, h10⟩

/-- `State.wf` by part. -/
structure State.Parts (s : State) : Prop where
  cfg : s.cfg.wf = true
  pc : s.pc.toNat < 2 ^ s.cfg.pcw
  sp : s.sp.toNat < 2 ^ s.cfg.spw
  io : s.io.wf = true
  prev : BitsIn s.prev 0x3C
  memories : MemoriesWf s

theorem State.wf_iff {s : State} : s.wf = true ↔ State.Parts s := by
  simp only [State.wf, State.prevWf, Bool.and_eq_true, decide_eq_true_eq, beq_iff_eq]
  constructor
  · rintro ⟨⟨⟨⟨⟨⟨⟨hcfg, hpc⟩, hsp⟩, hio⟩, hprev⟩, hsram⟩, hin⟩, hflash⟩
    exact ⟨hcfg, hpc, hsp, hio, hprev, hsram, hin, hflash⟩
  · rintro ⟨hcfg, hpc, hsp, hio, hprev, hsram, hin, hflash⟩
    exact ⟨⟨⟨⟨⟨⟨⟨hcfg, hpc⟩, hsp⟩, hio⟩, hprev⟩, hsram⟩, hin⟩, hflash⟩

/-! ## The device registers -/

theorem ioFile_wf_reset : IoFile.reset.wf = true := by decide

theorem ioFile_wf_ite {c : Prop} [Decidable c] {x y : IoFile} (hx : x.wf = true) (hy : y.wf = true) :
    (if c then x else y).wf = true := by
  split
  · exact hx
  · exact hy

section
variable {io : IoFile} (h : io.wf = true)
include h

theorem ioFile_wf_setTifr {n : BitNo} (hn : byteBit 0xCA n = true) (b : Bool) :
    ({ io with tifr := setByteBit io.tifr n b }).wf = true := by
  have hm := IoFile.wf_iff.mp h
  exact IoFile.wf_iff.mpr { hm with tifr := hm.tifr.set hn b }

theorem ioFile_wf_setGifr {n : BitNo} (hn : byteBit 0xC0 n = true) (b : Bool) :
    ({ io with gifr := setByteBit io.gifr n b }).wf = true := by
  have hm := IoFile.wf_iff.mp h
  exact IoFile.wf_iff.mpr { hm with gifr := hm.gifr.set hn b }

theorem count0_wf : io.count0.wf = true := by
  simp only [IoFile.count0]
  split
  · exact ioFile_wf_setTifr h (n := 1) rfl true
  · exact h

theorem count1_wf : io.count1.wf = true := by
  simp only [IoFile.count1]
  split
  · exact ioFile_wf_setTifr h (n := 7) rfl true
  · exact h

theorem raiseGifr_wf {n : BitNo} (hn : byteBit 0xC0 n = true) (c : Bool) : (io.raiseGifr n c).wf = true :=
  ioFile_wf_ite (ioFile_wf_setGifr h hn true) h

/-- The edges of PD2 and PD3 raise flags of GIFR, those of PD4 and PD5 count (60_exceptions.md R343, R344). -/
theorem pinEdges_wf (old new : Byte) : (io.pinEdges old new).wf = true := by
  have hInt (c d : Bool) : ((io.raiseGifr 6 c).raiseGifr 7 d).wf = true := raiseGifr_wf (raiseGifr_wf h rfl c) rfl d
  have hTimer0 (c d e : Bool) : (if e then ((io.raiseGifr 6 c).raiseGifr 7 d).count0
      else (io.raiseGifr 6 c).raiseGifr 7 d).wf = true :=
    ioFile_wf_ite (count0_wf (hInt c d)) (hInt c d)
  exact ioFile_wf_ite (count1_wf (hTimer0 _ _ _)) (hTimer0 _ _ _)

theorem clearRequest_wf (q : Irq) : (io.clearRequest q).wf = true := by
  cases q with
  | int0 => exact ioFile_wf_ite h (ioFile_wf_setGifr h (n := 6) rfl false)
  | int1 => exact ioFile_wf_ite h (ioFile_wf_setGifr h (n := 7) rfl false)
  | icp1 => exact ioFile_wf_setTifr h (n := 3) rfl false
  | oc1 => exact ioFile_wf_setTifr h (n := 6) rfl false
  | ovf1 => exact ioFile_wf_setTifr h (n := 7) rfl false
  | ovf0 => exact ioFile_wf_setTifr h (n := 1) rfl false
  | urxc | udre | utxc | aci => exact h

end

/-! ## Updates of the state

The invariant does not look at the working registers, SREG, the pins' outside, the sleep flag, the interrupt delay
or the schedule: an update of these alone leaves `State.wf` the same by definition. -/

@[simp] theorem setReg_wf (s : State) (i : Reg) (v : Byte) : (s.setReg i v).wf = s.wf := rfl
@[simp] theorem setPair_wf (s : State) (i : Reg) (w : Word) : (s.setPair i w).wf = s.wf := rfl
@[simp] theorem setPtr_wf (s : State) (p : Ptr) (w : Word) : (s.setPtr p w).wf = s.wf := rfl
@[simp] theorem setFlags_wf (s : State) (v : Byte) : (s.setFlags v).wf = s.wf := rfl
@[simp] theorem writeSreg_wf (s : State) (v : Byte) : (s.writeSreg v).wf = s.wf := rfl
@[simp] theorem beginInstr_wf (s : State) : s.beginInstr.wf = s.wf := rfl

@[simp] theorem mapPins_wf (s : State) (x : Port) (f : PinDrive → PinDrive) : (s.mapPins x f).wf = s.wf := by
  cases x <;> rfl

theorem wrapTo_lt (n : Nat) (w : Word) : (wrapTo n w).toNat < 2 ^ n := by
  rw [wrapTo, BitVec.toNat_ofNat]
  exact (Nat.mod_le _ _).trans_lt (Nat.mod_lt _ (by positivity))

section
variable {s : State} (hs : s.wf = true)
include hs

theorem setPc_wf (t : Word) : (s.setPc t).wf = true :=
  State.wf_iff.mpr { State.wf_iff.mp hs with pc := wrapTo_lt _ _ }

theorem advance_wf (n : Word) : (s.advance n).wf = true := setPc_wf hs _

theorem setSp_wf (v : Word) : (s.setSp v).wf = true :=
  State.wf_iff.mpr { State.wf_iff.mp hs with sp := wrapTo_lt _ _ }

theorem setIo_wf {io : IoFile} (hio : io.wf = true) : (s.setIo io).wf = true :=
  State.wf_iff.mpr { State.wf_iff.mp hs with io := hio }

theorem pinsChanged_wf : s.pinsChanged.wf = true := by
  have hp := State.wf_iff.mp hs
  exact State.wf_iff.mpr { hp with io := pinEdges_wf hp.io _ _, prev := bitsIn_and_mask _ _ }

/-! ## The data space and the stack -/

/-- A write of an I/O register stores only bits that are not reserved (60_exceptions.md R348). -/
theorem ioRegWrite_wf {t : State} {v : Byte} {r : IoReg} (h : s.ioRegWrite v r = some t) : t.wf = true := by
  have hio := (State.wf_iff.mp hs).io
  have hm := IoFile.wf_iff.mp hio
  cases r <;> simp only [State.ioRegWrite, Option.some.injEq, reduceCtorEq] at h <;> subst h
  case sreg => exact hs
  case spl | sph => exact setSp_wf hs _
  case gimsk => exact setIo_wf hs (IoFile.wf_iff.mpr { hm with gimsk := bitsIn_and_mask _ _ })
  case gifr => exact setIo_wf hs (IoFile.wf_iff.mpr { hm with gifr := hm.gifr.and _ })
  case timsk => exact setIo_wf hs (IoFile.wf_iff.mpr { hm with timsk := bitsIn_and_mask _ _ })
  case tifr => exact setIo_wf hs (IoFile.wf_iff.mpr { hm with tifr := hm.tifr.and _ })
  case mcucr => exact setIo_wf hs (IoFile.wf_iff.mpr { hm with mcucr := bitsIn_and_mask _ _ })
  case tccr0 => exact setIo_wf hs (IoFile.wf_iff.mpr { hm with tccr0 := bitsIn_and_mask _ _ })
  case tccr1a => exact setIo_wf hs (IoFile.wf_iff.mpr { hm with tccr1a := bitsIn_and_mask _ _ })
  case tccr1b => exact setIo_wf hs (IoFile.wf_iff.mpr { hm with tccr1b := bitsIn_and_mask _ _ })
  case tcnt0 | tcnt1h | tcnt1l | ocr1ah | ocr1al | icr1h | icr1l | portB | ddrB => exact setIo_wf hs hio
  case portD =>
    exact pinsChanged_wf (setIo_wf hs (IoFile.wf_iff.mpr { hm with portD := bitsIn_and_mask _ _ }))
  case ddrD =>
    exact pinsChanged_wf (setIo_wf hs (IoFile.wf_iff.mpr { hm with ddrD := bitsIn_and_mask _ _ }))

theorem ioWrite_wf {t : State} {a : IoAddr} {v : Byte} (h : s.ioWrite a v = .ok t) : t.wf = true := by
  obtain ⟨r, -, hr⟩ := ioWrite_ok.mp h
  exact ioRegWrite_wf hs hr

theorem memWrite_wf {t : State} {a : Word} {v : Byte} (h : s.memWrite a v = .ok t) : t.wf = true := by
  have hmem := memWrite_memoriesWf (State.wf_iff.mp hs).memories h
  rcases memWrite_ok.mp h with ⟨-, rfl⟩ | ⟨-, -, hw⟩ | ⟨-, -, rfl⟩
  · exact hs
  · exact ioWrite_wf hs hw
  · exact State.wf_iff.mpr { State.wf_iff.mp hs with memories := hmem }

theorem push8_wf {t : State} {v : Byte} (h : s.push8 v = .ok t) : t.wf = true := by
  obtain ⟨u, hu, rfl⟩ := push8_ok.mp h
  exact setSp_wf (memWrite_wf hs hu) _

theorem pushPc_wf {t : State} {w : Word} (h : s.pushPc w = .ok t) : t.wf = true := by
  obtain ⟨u, hlow, hhigh⟩ := pushPc_ok.mp h
  exact push8_wf (push8_wf hs hlow) hhigh

theorem pop8_wf {t : State} {v : Byte} (h : s.pop8 = .ok (v, t)) : t.wf = true := by
  obtain ⟨rfl, -⟩ := pop8_ok.mp h
  exact setSp_wf hs _

theorem popPc_wf {t : State} {w : Word} (h : s.popPc = .ok (w, t)) : t.wf = true := by
  obtain ⟨_, u, _, hhigh, hlow, -⟩ := popPc_ok.mp h
  exact pop8_wf (pop8_wf hs hhigh) hlow

/-! ## The shared operations of the instructions -/

theorem branchIf_wf (c : Bool) (k : BitVec 7) : (s.branchIf c k).wf = true := by
  unfold State.branchIf
  split
  · exact setPc_wf hs _
  · exact advance_wf hs 1

theorem skipIf_wf {t : State} {c : Bool} (h : s.skipIf c = .ok t) : t.wf = true := by
  rcases skipIf_ok.mp h with ⟨-, rfl⟩ | ⟨-, m, -, rfl⟩
  · exact advance_wf hs 1
  · exact setPc_wf hs _

theorem loadIndirect_wf {t : State} {p : Ptr} {m : PtrMode} {rd : Reg} (h : s.loadIndirect p m rd = .ok t) :
    t.wf = true := by
  cases m with
  | plain =>
    obtain ⟨v, -, rfl⟩ := loadIndirect_plain_ok.mp h
    exact advance_wf (by simp [hs]) 1
  | postInc =>
    obtain ⟨-, v, -, rfl⟩ := loadIndirect_postInc_ok.mp h
    exact advance_wf (by simp [hs]) 1
  | preDec =>
    obtain ⟨-, v, -, rfl⟩ := loadIndirect_preDec_ok.mp h
    exact advance_wf (by simp [hs]) 1

theorem storeIndirect_wf {t : State} {p : Ptr} {m : PtrMode} {rr : Reg} (h : s.storeIndirect p m rr = .ok t) :
    t.wf = true := by
  cases m with
  | plain =>
    obtain ⟨u, hu, rfl⟩ := storeIndirect_plain_ok.mp h
    exact advance_wf (memWrite_wf hs hu) 1
  | postInc =>
    obtain ⟨-, u, hu, rfl⟩ := storeIndirect_postInc_ok.mp h
    exact advance_wf (by simp [memWrite_wf hs hu]) 1
  | preDec =>
    obtain ⟨-, u, hu, rfl⟩ := storeIndirect_preDec_ok.mp h
    exact advance_wf (memWrite_wf (by simp [hs]) hu) 1

theorem loadFrom_wf {t : State} {a : Word} {rd : Reg} {n : Word} (h : s.loadFrom a rd n = .ok t) :
    t.wf = true := by
  obtain ⟨v, -, rfl⟩ := loadFrom_ok.mp h
  exact advance_wf (by simp [hs]) n

theorem storeTo_wf {t : State} {a : Word} {rr : Reg} {n : Word} (h : s.storeTo a rr n = .ok t) : t.wf = true := by
  obtain ⟨u, hu, rfl⟩ := storeTo_ok.mp h
  exact advance_wf (memWrite_wf hs hu) n

theorem ioBitWrite_wf {t : State} {a : IoAddr} {b : BitNo} {v : Bool} (h : s.ioBitWrite a b v = .ok t) :
    t.wf = true := by
  obtain ⟨old, u, -, hu, rfl⟩ := ioBitWrite_ok.mp h
  exact advance_wf (ioWrite_wf hs hu) 1

theorem returnFromCall_wf {t : State} (h : s.returnFromCall = .ok t) : t.wf = true := by
  obtain ⟨w, u, hu, rfl⟩ := returnFromCall_ok.mp h
  exact setPc_wf (popPc_wf hs hu) w

theorem returnFromInterrupt_wf {t : State} (h : s.returnFromInterrupt = .ok t) : t.wf = true := by
  obtain ⟨w, u, hu, rfl⟩ := returnFromInterrupt_ok.mp h
  exact (setPc_wf (popPc_wf hs hu) w :)

theorem takeInterrupt_wf {t : State} {n : Nat} {q : Irq} (h : s.takeInterrupt n q = .ok t) : t.wf = true := by
  obtain ⟨u, hu, rfl⟩ := takeInterrupt_ok.mp h
  have huw := pushPc_wf hs hu
  have hcleared : ((u.writeSreg (setFlag u.sreg .i false)).setIo (u.io.clearRequest q)).wf = true :=
    setIo_wf (by simp [huw]) (clearRequest_wf (State.wf_iff.mp huw).io q)
  exact (setPc_wf hcleared (BitVec.ofNat 16 (n * u.cfg.vectorStride)) :)

end

/-! ## Reset and the environment's events -/

/-- The invariant asks of a reset state nothing but sound parameters (10_state.md R47). -/
theorem resetOf_wf {c : Config} (hc : c.wf = true) : (State.resetOf c).wf = true :=
  State.wf_iff.mpr
    { cfg := hc
      pc := Nat.two_pow_pos _
      sp := Nat.two_pow_pos _
      io := ioFile_wf_reset
      prev := BitVec.zero_and
      memories := memoriesWf_resetOf c }

theorem chipReset_wf {s : State} (hs : s.wf = true) : s.chipReset.wf = true := by
  obtain ⟨hcfg, -, -, -, -, -, -, hflash⟩ := State.wf_iff.mp hs
  obtain ⟨-, hpc, hsp, hio, -, hsram, hin, -⟩ := State.wf_iff.mp (resetOf_wf hcfg)
  exact State.wf_iff.mpr ⟨hcfg, hpc, hsp, hio, bitsIn_and_mask _ _, hsram, hin, hflash⟩

theorem event_wf {s : State} (hs : s.wf = true) (e : EnvEvent) : (s.event e).wf = true := by
  have hio := (State.wf_iff.mp hs).io
  cases e with
  | drive x n v => exact pinsChanged_wf (by simpa using hs)
  | float x n v => exact pinsChanged_wf (by simpa using hs)
  | tick0 =>
    simp only [State.event]
    split
    · exact setIo_wf hs (count0_wf hio)
    · exact hs
  | tick1 =>
    simp only [State.event]
    split
    · exact setIo_wf hs (count1_wf hio)
    · exact hs
  | flag f =>
    cases f with
    | ocf1a => exact setIo_wf hs (ioFile_wf_setTifr hio (n := 6) rfl true)
    | icf1 => exact setIo_wf hs (ioFile_wf_setTifr hio (n := 3) rfl true)
  | reset => exact chipReset_wf hs

theorem eventList_wf {s : State} (hs : s.wf = true) (es : List EnvEvent) : (s.eventList es).wf = true := by
  induction es generalizing s with
  | nil => exact hs
  | cons e es ih => exact ih (event_wf hs e)

theorem takeInputs_wf {s : State} (hs : s.wf = true) : s.takeInputs.wf = true := by
  unfold State.takeInputs
  split
  · exact hs
  · rename_i batch rest _
    exact eventList_wf (s := { s with inputs := rest }) hs batch

/-! ## Instructions and steps -/

/-- If the outcome is a next state, the invariant holds of it. -/
def NextWf (o : Host.Outcome State Fault Refusal) : Prop := ∀ t, o = .next t → t.wf = true

theorem nextWf_next {t : State} (h : t.wf = true) : NextWf (.next t) := by
  rintro _ ⟨⟩
  exact h

theorem nextWf_fault (f : Fault) : NextWf (.fault f) := by
  rintro _ ⟨⟩

theorem nextWf_outcome {e : Except Fault State} (h : ∀ t, e = .ok t → t.wf = true) : NextWf (outcome e) :=
  fun t ht => h t (outcome_next.mp ht)

/-- A meaning in two parts, as its second part goes on from what the first gives. -/
theorem nextWf_outcome_bind {α : Type} {e : Except Fault α} {f : α → Except Fault State}
    (h : ∀ a t, e = .ok a → f a = .ok t → t.wf = true) : NextWf (outcome (e >>= f)) :=
  nextWf_outcome fun t ht => by
    obtain ⟨a, ha, hf⟩ := bind_ok.mp ht
    exact h a t ha hf

theorem nextWf_outcome_bind_pure {α : Type} {e : Except Fault α} {f : α → State}
    (h : ∀ a, e = .ok a → (f a).wf = true) : NextWf (outcome (e >>= fun a => pure (f a))) :=
  nextWf_outcome_bind fun a _ ha ht => pure_ok.mp ht ▸ h a ha

/-- Every instruction keeps the invariant. Those that change only registers and flags before the PC moves on are
one case, the others go by the shared operation they are made of. -/
theorem exec_nextWf {s : State} (hs : s.wf = true) (i : Instr) : NextWf (exec i s) := by
  cases i
  case mov | ldi | sbr | cbr | lsl | lsr | rol | ror | asr | swap | bset | bclr | bst | bld | sec | clc | sen | cln |
      sez | clz | sei | cli | ses | cls | sev | clv | setT | clt | seh | clh | nop | wdr | add | adc | adiw | sub |
      subi | sbc | sbci | sbiw | and | andi | or | ori | eor | com | neg | inc | dec | tst | clr | ser | cp | cpc |
      cpi | movw | mul | muls | mulsu | fmul | fmuls | fmulsu =>
    exact nextWf_next (advance_wf (by simp [hs]) 1)
  case sleep => exact nextWf_next (advance_wf hs 1 :)
  case rjmp | ijmp | jmp => exact nextWf_next (setPc_wf hs _)
  case brbs | brbc | breq | brne | brcs | brcc | brsh | brlo | brmi | brpl | brge | brlt | brhs | brhc | brts | brtc |
      brvs | brvc | brie | brid =>
    exact nextWf_next (branchIf_wf hs _ _)
  case ldX | ldXInc | ldXDec | ldY | ldYInc | ldYDec | ldZ | ldZInc | ldZDec =>
    exact nextWf_outcome fun _ => loadIndirect_wf hs
  case stX | stXInc | stXDec | stY | stYInc | stYDec | stZ | stZInc | stZDec =>
    exact nextWf_outcome fun _ => storeIndirect_wf hs
  case lddY | lddZ | lds => exact nextWf_outcome fun _ => loadFrom_wf hs
  case stdY | stdZ | sts => exact nextWf_outcome fun _ => storeTo_wf hs
  case sbi | cbi => exact nextWf_outcome fun _ => ioBitWrite_wf hs
  case cpse | sbrc | sbrs => exact nextWf_outcome fun _ => skipIf_wf hs
  case sbic | sbis => exact nextWf_outcome_bind fun _ _ _ => skipIf_wf hs
  case lpm | lpmZ | inPort => exact nextWf_outcome_bind_pure fun _ _ => advance_wf (by simp [hs]) 1
  case lpmZInc =>
    simp only [exec, execLpmZInc]
    split
    · exact nextWf_fault _
    · exact nextWf_outcome_bind_pure fun _ _ => advance_wf (by simp [hs]) 1
  case outPort => exact nextWf_outcome_bind_pure fun _ hu => advance_wf (ioWrite_wf hs hu) 1
  case push => exact nextWf_outcome_bind_pure fun _ hu => advance_wf (push8_wf hs hu) 1
  case pop =>
    refine nextWf_outcome_bind fun (v, u) t hu ht => ?_
    obtain rfl := pure_ok.mp ht
    exact advance_wf (by simp [pop8_wf hs hu]) 1
  case rcall | icall | call => exact nextWf_outcome_bind_pure fun _ hu => setPc_wf (pushPc_wf hs hu) _
  case ret => exact nextWf_outcome fun _ => returnFromCall_wf hs
  case reti => exact nextWf_outcome fun _ => returnFromInterrupt_wf hs
  case spm | brk => exact nextWf_fault _

theorem runInstr_nextWf {s : State} (hs : s.wf = true) : NextWf s.runInstr := by
  unfold State.runInstr
  split
  · exact exec_nextWf hs _
  · exact nextWf_fault _

theorem stepCore_nextWf {s : State} (hs : s.wf = true) : NextWf s.stepCore := by
  unfold State.stepCore
  split
  · exact nextWf_outcome fun _ => takeInterrupt_wf hs
  · exact nextWf_next hs
  · exact runInstr_nextWf (by simp [hs])

theorem step_nextWf {s : State} (hs : s.wf = true) : NextWf (step s) := stepCore_nextWf (takeInputs_wf hs)

/-- Settles O7: the environment's events keep the invariant, and so do interrupt entry, a step of sleep and every
instruction. -/
theorem stepKeepsInvariant : Obligations.StepKeepsInvariant := fun _ t hs ht => step_nextWf hs t ht

/-- Settles O8: the parameters of both devices are sound. -/
theorem resetMeetsInvariant : Obligations.ResetMeetsInvariant := by
  have hp2313 : Config.p2313.wf = true := by decide
  have hpmega : Config.pmega.wf = true := by decide
  exact ⟨resetOf_wf hp2313, resetOf_wf hp2313, resetOf_wf hpmega⟩

end Sys2Proof.Machine
end

section
/-! SUPPORT. The values of the reset state (10_state.md R47). -/

namespace Sys2Proof.Machine

theorem resetOf_reg (c : Config) (r : Reg) : (State.resetOf c).reg r = 0 := by
  simp [State.reg, State.resetOf]

theorem resetOf_sramByte (c : Config) (a : Nat) : (State.resetOf c).sramByte a = none := rfl

theorem resetOf_flashByte (c : Config) (b : Nat) : (State.resetOf c).flashByte b = erasedByte := rfl

/-- With I = 0 nothing is deliverable (60_exceptions.md R353). -/
theorem deliverable_of_flag_i_false {s : State} (h : s.flag .i = false) : s.deliverable = none := by
  simp [State.deliverable, h]

/-- Every I/O register reads 0 after reset, PINx because no pin is driven and floating pins are low (entry 9). -/
theorem reset_ioRegRead (r : IoReg) : State.reset.ioRegRead r = 0 := by
  cases r <;> decide

/-- Settles O12: R47's table, register by register. -/
theorem resetValues : Obligations.ResetValues :=
  ⟨rfl, rfl, rfl, rfl, reset_ioRegRead, rfl, rfl, by decide, resetOf_sramByte _, resetOf_flashByte _, resetOf_reg _,
    deliverable_of_flag_i_false rfl⟩

end Sys2Proof.Machine
end
section
/-! SUPPORT. What a write of the data space does at each kind of place, and PUSH and POP (20_memory.md R60 to R62;
10_state.md R32; 40_data_transfer.md R159, R161). -/

namespace Sys2Proof.Machine

/-! ## A write by the kind of place -/

theorem sramAt_iff {s : State} {a : Word} : s.sramAt a = true ↔ 0x5F < a.toNat ∧ s.inSram a = true := by
  simp [State.sramAt]

theorem memWrite_of_sramAt {s : State} {a : Word} (h : s.sramAt a = true) (v : Byte) :
    s.memWrite a v = .ok (s.setSram a v) :=
  memWrite_ok.mpr (.inr (.inr ⟨(sramAt_iff.mp h).1, (sramAt_iff.mp h).2, rfl⟩))

theorem regOfAddr_of_toNat {a : Word} {d : Reg} (h : a.toNat = d.val) : regOfAddr a = d := by
  ext
  simp [regOfAddr, h]

theorem memWrite_of_reg {s : State} {a : Word} {d : Reg} (h : a.toNat = d.val) (v : Byte) :
    s.memWrite a v = .ok (s.setReg d v) :=
  memWrite_ok.mpr (.inl ⟨by omega, by rw [regOfAddr_of_toNat h]⟩)

theorem ioAddrOf_of_toNat {a : Word} {p : IoAddr} (h : a.toNat = p.toNat + 0x20) : ioAddrOf a = p := by
  simp [ioAddrOf, h]

theorem memWrite_of_io {s t : State} {a : Word} {p : IoAddr} {v : Byte} (h : a.toNat = p.toNat + 0x20)
    (hw : s.ioWrite p v = .ok t) : s.memWrite a v = .ok t :=
  memWrite_ok.mpr (.inr (.inl ⟨by omega, by omega, by rwa [ioAddrOf_of_toNat h]⟩))

/-! ## PUSH and POP -/

theorem exec_push {s u : State} {r : Reg} (h : s.memWrite s.sp (s.reg r) = .ok u) :
    exec (.push r) s = .next ((u.setSp (u.sp - 1)).advance 1) :=
  outcome_next.mpr (bind_ok.mpr ⟨_, push8_ok.mpr ⟨u, h, rfl⟩, rfl⟩)

theorem exec_push_fault {s : State} {r : Reg} {f : Fault} (h : s.memWrite s.sp (s.reg r) = .error f) :
    exec (.push r) s = .fault f :=
  outcome_fault.mpr (bind_error.mpr (.inl (push8_error.mpr h)))

theorem exec_pop {s : State} {r : Reg} {v : Byte}
    (h : (s.setSp (s.sp + 1)).memRead (s.setSp (s.sp + 1)).sp = .ok v) :
    exec (.pop r) s = .next (((s.setSp (s.sp + 1)).setReg r v).advance 1) :=
  outcome_next.mpr (bind_ok.mpr ⟨_, pop8_ok.mpr ⟨rfl, h⟩, rfl⟩)

theorem exec_pop_fault {s : State} {r : Reg} {f : Fault}
    (h : (s.setSp (s.sp + 1)).memRead (s.setSp (s.sp + 1)).sp = .error f) : exec (.pop r) s = .fault f :=
  outcome_fault.mpr (bind_error.mpr (.inl (pop8_error.mpr h)))

/-- A register written and the stack pointer moved is all that changes, but for the PC. -/
theorem frameStack_setReg (s : State) (r : Reg) (v : Byte) (w n : Word) :
    FrameStack [r] [] s (((s.setReg r v).setSp w).advance n) := by
  refine ⟨fun j hj => ?_, fun _ _ => rfl, ⟨fun _ _ => rfl, fun _ => rfl⟩, ⟨rfl, rfl, rfl, rfl, rfl, rfl, rfl⟩, rfl⟩
  rw [List.mem_singleton] at hj
  simp [hj]

/-- An SRAM byte written and the stack pointer moved is all that changes, but for the PC. -/
theorem frameStack_setSram (s : State) (a : Word) (v : Byte) (w n : Word) :
    FrameStack [] [a] s (((s.setSram a v).setSp w).advance n) := by
  refine ⟨fun _ _ => rfl, fun _ _ => rfl, ⟨fun b hb => ?_, fun _ => rfl⟩, ⟨rfl, rfl, rfl, rfl, rfl, rfl, rfl⟩, rfl⟩
  have hba : b ≠ a.toNat := hb a List.mem_cons_self
  simp [hba]

/-- Settles O28: the write at SP by the kind of place SP names, the read at SP + 1, and their faults. -/
theorem pushAndPop : Obligations.PushAndPop := by
  rintro s u r rfl
  refine ⟨fun hsram => ?_, fun d hd => ?_, fun p w hp hw => exec_push (memWrite_of_io hp hw),
    fun f hf => exec_push_fault hf, fun v hv => ?_, fun f hf => exec_pop_fault hf⟩
  · exact ⟨_, exec_push (memWrite_of_sramAt hsram _), by simp, rfl, frameStack_setSram .., rfl⟩
  · exact ⟨_, exec_push (memWrite_of_reg hd _), by simp, rfl, frameStack_setReg .., rfl⟩
  · exact ⟨_, exec_pop hv, by simp, rfl, frameStack_setReg .., rfl⟩

end Sys2Proof.Machine
end

section
/-! SUPPORT. What a read and a write of a data address do, region by region (20_memory.md R60 to R63). -/

namespace Sys2Proof.Machine

/-! ## The region of an address -/

theorem memRead_of_reg {s : State} {a : Word} {d : Reg} (h : a.toNat = d.val) : s.memRead a = .ok (s.reg d) :=
  memRead_ok.mpr (.inl ⟨by omega, by rw [regOfAddr_of_toNat h]⟩)

/-- The I/O block reads through to the I/O registers, faults included (20_memory.md R61). -/
theorem memRead_eq_ioRead {s : State} {a : Word} {p : IoAddr} (h : a.toNat = p.toNat + 0x20) :
    s.memRead a = s.ioRead p := by
  rw [State.memRead, if_neg (by omega), if_pos (by omega), ioAddrOf_of_toNat h]

theorem memWrite_eq_ioWrite {s : State} {a : Word} {p : IoAddr} (h : a.toNat = p.toNat + 0x20) (v : Byte) :
    s.memWrite a v = s.ioWrite p v := by
  rw [State.memWrite, if_neg (by omega), if_pos (by omega), ioAddrOf_of_toNat h]

theorem memRead_of_sramByte_some {s : State} {a : Word} {v : Byte} (ha : s.sramAt a = true)
    (hv : s.sramByte a.toNat = some v) : s.memRead a = .ok v :=
  memRead_ok.mpr (.inr (.inr ⟨(sramAt_iff.mp ha).1, (sramAt_iff.mp ha).2, hv⟩))

/-- A byte nothing has written since reset holds no value to read (10_state.md R48; entry 2). -/
theorem memRead_of_sramByte_none {s : State} {a : Word} (ha : s.sramAt a = true)
    (hv : s.sramByte a.toNat = none) : s.memRead a = .error (.uninitialisedRead a) := by
  obtain ⟨hlow, hin⟩ := sramAt_iff.mp ha
  rw [State.memRead, if_neg (by omega), if_neg (by omega), if_pos hin, hv]

theorem inSram_eq_false_iff {s : State} {a : Word} :
    s.inSram a = false ↔ a.toNat < s.cfg.sramStart.toNat ∨ s.cfg.ramend.toNat < a.toNat := by
  simp only [State.inSram, decide_eq_false_iff_not]
  omega

section
variable {s : State} {a : Word} (hlow : 0x60 ≤ a.toNat) (hout : s.inSram a = false)
include hlow hout

theorem memRead_outside : s.memRead a = .error (.dataAddressOutOfRange a) := by
  rw [State.memRead, if_neg (by omega), if_neg (by omega), hout, if_neg Bool.false_ne_true]

theorem memWrite_outside (v : Byte) : s.memWrite a v = .error (.dataAddressOutOfRange a) := by
  rw [State.memWrite, if_neg (by omega), if_neg (by omega), hout, if_neg Bool.false_ne_true]

end

/-! ## What a write leaves alone -/

theorem frameStore_setReg (s : State) (r : Reg) (v : Byte) : FrameStore [r] [] s (s.setReg r v) := by
  refine ⟨fun j hj => ?_, fun _ _ => rfl, ⟨fun _ _ => rfl, fun _ => rfl⟩, ⟨rfl, rfl, rfl, rfl, rfl, rfl, rfl⟩,
    rfl, rfl⟩
  rw [List.mem_singleton] at hj
  exact setReg_reg_ne s v hj

theorem frameStore_setSram (s : State) (a : Word) (v : Byte) : FrameStore [] [a] s (s.setSram a v) := by
  refine ⟨fun _ _ => rfl, fun _ _ => rfl, ⟨fun b hb => ?_, fun _ => rfl⟩, ⟨rfl, rfl, rfl, rfl, rfl, rfl, rfl⟩,
    rfl, rfl⟩
  have hba : b ≠ a.toNat := hb a List.mem_cons_self
  simp [hba]

/-- Settles O14: one case for each region, the registers, the I/O block, the SRAM and what lies in none of them. -/
theorem dataSpaceAccesses : Obligations.DataSpaceAccesses := by
  refine fun s a v => ⟨fun r hr => ?reg, fun p hp => ?io, fun hsram => ?sram, fun hlow hout => ?outside⟩
  case reg =>
    exact ⟨memRead_of_reg hr, _, memWrite_of_reg hr v, setReg_reg_self s r v, frameStore_setReg s r v, rfl⟩
  case io => exact ⟨memRead_eq_ioRead hp, memWrite_eq_ioWrite hp v⟩
  case sram =>
    exact ⟨fun x hx => memRead_of_sramByte_some hsram hx, memRead_of_sramByte_none hsram,
      _, memWrite_of_sramAt hsram v, by simp, frameStore_setSram s a v, rfl⟩
  case outside =>
    have hin := inSram_eq_false_iff.mpr hout
    exact ⟨memRead_outside hlow hin, memWrite_outside hlow hin v⟩

end Sys2Proof.Machine
end

section
/-! SUPPORT. The parameters and program memory stay as they are under every operation and every step
(20_memory.md R67, R77). -/

namespace Sys2Proof.Machine

/-- The parameters and program memory, which no step changes. -/
def SameProgram (s t : State) : Prop := t.cfg = s.cfg ∧ t.flash = s.flash

theorem SameProgram.trans {s t u : State} (hst : SameProgram s t) (htu : SameProgram t u) : SameProgram s u :=
  ⟨htu.1.trans hst.1, htu.2.trans hst.2⟩

section
variable {s t : State} (h : SameProgram s t)
include h

theorem SameProgram.flashByte (b : Nat) : t.flashByte b = s.flashByte b := by
  simp only [State.flashByte, h.2]

theorem SameProgram.fetchWord (w : Word) : t.fetchWord w = s.fetchWord w := by
  simp only [State.fetchWord, State.progWord, h.flashByte, h.1]

end

/-! ## The shared operations -/

section
variable {s t : State}

theorem memWrite_sameProgram {a : Word} {v : Byte} (h : s.memWrite a v = .ok t) : SameProgram s t := by
  obtain ⟨hcfg, -, hflash, -⟩ := memWrite_frame h
  exact ⟨hcfg, hflash⟩

theorem ioWrite_sameProgram {a : IoAddr} {v : Byte} (h : s.ioWrite a v = .ok t) : SameProgram s t := by
  obtain ⟨hcfg, -, -, -, hflash, -⟩ := ioWrite_frame h
  exact ⟨hcfg, hflash⟩

theorem push8_sameProgram {v : Byte} (h : s.push8 v = .ok t) : SameProgram s t := by
  obtain ⟨u, hu, rfl⟩ := push8_ok.mp h
  exact (memWrite_sameProgram hu :)

theorem pushPc_sameProgram {w : Word} (h : s.pushPc w = .ok t) : SameProgram s t := by
  obtain ⟨u, hlow, hhigh⟩ := pushPc_ok.mp h
  exact (push8_sameProgram hlow).trans (push8_sameProgram hhigh)

theorem pop8_sameProgram {v : Byte} (h : s.pop8 = .ok (v, t)) : SameProgram s t := by
  obtain ⟨rfl, -⟩ := pop8_ok.mp h
  exact ⟨rfl, rfl⟩

theorem popPc_sameProgram {w : Word} (h : s.popPc = .ok (w, t)) : SameProgram s t := by
  obtain ⟨_, u, _, hhigh, hlow, -⟩ := popPc_ok.mp h
  exact (pop8_sameProgram hhigh).trans (pop8_sameProgram hlow)

theorem branchIf_sameProgram (s : State) (c : Bool) (k : BitVec 7) : SameProgram s (s.branchIf c k) := by
  cases c <;> exact ⟨rfl, rfl⟩

theorem skipIf_sameProgram {c : Bool} (h : s.skipIf c = .ok t) : SameProgram s t := by
  rcases skipIf_ok.mp h with ⟨-, rfl⟩ | ⟨-, m, -, rfl⟩ <;> exact ⟨rfl, rfl⟩

theorem loadIndirect_sameProgram {p : Ptr} {m : PtrMode} {rd : Reg} (h : s.loadIndirect p m rd = .ok t) :
    SameProgram s t := by
  cases m with
  | plain =>
    obtain ⟨v, -, rfl⟩ := loadIndirect_plain_ok.mp h
    exact ⟨rfl, rfl⟩
  | postInc =>
    obtain ⟨-, v, -, rfl⟩ := loadIndirect_postInc_ok.mp h
    exact ⟨rfl, rfl⟩
  | preDec =>
    obtain ⟨-, v, -, rfl⟩ := loadIndirect_preDec_ok.mp h
    exact ⟨rfl, rfl⟩

theorem storeIndirect_sameProgram {p : Ptr} {m : PtrMode} {rr : Reg} (h : s.storeIndirect p m rr = .ok t) :
    SameProgram s t := by
  cases m with
  | plain =>
    obtain ⟨u, hu, rfl⟩ := storeIndirect_plain_ok.mp h
    exact (memWrite_sameProgram hu :)
  | postInc =>
    obtain ⟨-, u, hu, rfl⟩ := storeIndirect_postInc_ok.mp h
    exact (memWrite_sameProgram hu :)
  | preDec =>
    obtain ⟨-, u, hu, rfl⟩ := storeIndirect_preDec_ok.mp h
    exact (memWrite_sameProgram hu :)

theorem loadFrom_sameProgram {a : Word} {rd : Reg} {n : Word} (h : s.loadFrom a rd n = .ok t) :
    SameProgram s t := by
  obtain ⟨v, -, rfl⟩ := loadFrom_ok.mp h
  exact ⟨rfl, rfl⟩

theorem storeTo_sameProgram {a : Word} {rr : Reg} {n : Word} (h : s.storeTo a rr n = .ok t) :
    SameProgram s t := by
  obtain ⟨u, hu, rfl⟩ := storeTo_ok.mp h
  exact (memWrite_sameProgram hu :)

theorem ioBitWrite_sameProgram {a : IoAddr} {b : BitNo} {v : Bool} (h : s.ioBitWrite a b v = .ok t) :
    SameProgram s t := by
  obtain ⟨old, u, -, hu, rfl⟩ := ioBitWrite_ok.mp h
  exact (ioWrite_sameProgram hu :)

theorem returnFromCall_sameProgram (h : s.returnFromCall = .ok t) : SameProgram s t := by
  obtain ⟨w, u, hu, rfl⟩ := returnFromCall_ok.mp h
  exact (popPc_sameProgram hu :)

theorem returnFromInterrupt_sameProgram (h : s.returnFromInterrupt = .ok t) : SameProgram s t := by
  obtain ⟨w, u, hu, rfl⟩ := returnFromInterrupt_ok.mp h
  exact (popPc_sameProgram hu :)

theorem takeInterrupt_sameProgram {n : Nat} {q : Irq} (h : s.takeInterrupt n q = .ok t) : SameProgram s t := by
  obtain ⟨u, hu, rfl⟩ := takeInterrupt_ok.mp h
  exact (pushPc_sameProgram hu :)

end

/-! ## Instructions and steps -/

/-- If the outcome is a next state, it has the parameters and the program memory of `s`. -/
def NextSameProgram (s : State) (o : Host.Outcome State Fault Refusal) : Prop := ∀ t, o = .next t → SameProgram s t

section
variable {s : State}

theorem nextSameProgram_next {t : State} (h : SameProgram s t) : NextSameProgram s (.next t) := by
  rintro _ ⟨⟩
  exact h

theorem nextSameProgram_fault (s : State) (f : Fault) : NextSameProgram s (.fault f) := by
  rintro _ ⟨⟩

theorem nextSameProgram_outcome {e : Except Fault State} (h : ∀ t, e = .ok t → SameProgram s t) :
    NextSameProgram s (outcome e) :=
  fun t ht => h t (outcome_next.mp ht)

/-- A meaning in two parts, as its second part goes on from what the first gives. -/
theorem nextSameProgram_bind {α : Type} {e : Except Fault α} {f : α → Except Fault State}
    (h : ∀ a t, e = .ok a → f a = .ok t → SameProgram s t) : NextSameProgram s (outcome (e >>= f)) :=
  nextSameProgram_outcome fun t ht => by
    obtain ⟨a, ha, hf⟩ := bind_ok.mp ht
    exact h a t ha hf

theorem nextSameProgram_bind_pure {α : Type} {e : Except Fault α} {f : α → State}
    (h : ∀ a, e = .ok a → SameProgram s (f a)) : NextSameProgram s (outcome (e >>= fun a => pure (f a))) :=
  nextSameProgram_bind fun a _ ha ht => pure_ok.mp ht ▸ h a ha

/-- No instruction has a way to program memory: the stores, the I/O writes and the stack go to the data space, the
rest changes registers, flags and the PC. -/
theorem exec_nextSameProgram (i : Instr) (s : State) : NextSameProgram s (exec i s) := by
  cases i
  case mov | ldi | sbr | cbr | lsl | lsr | rol | ror | asr | swap | bset | bclr | bst | bld | sec | clc | sen | cln |
      sez | clz | sei | cli | ses | cls | sev | clv | setT | clt | seh | clh | nop | sleep | wdr | add | adc | adiw |
      sub | subi | sbc | sbci | sbiw | and | andi | or | ori | eor | com | neg | inc | dec | tst | clr | ser | cp |
      cpc | cpi | movw | mul | muls | mulsu | fmul | fmuls | fmulsu | rjmp | ijmp | jmp =>
    exact nextSameProgram_next ⟨rfl, rfl⟩
  case brbs | brbc | breq | brne | brcs | brcc | brsh | brlo | brmi | brpl | brge | brlt | brhs | brhc | brts | brtc |
      brvs | brvc | brie | brid =>
    exact nextSameProgram_next (branchIf_sameProgram ..)
  case ldX | ldXInc | ldXDec | ldY | ldYInc | ldYDec | ldZ | ldZInc | ldZDec =>
    exact nextSameProgram_outcome fun _ => loadIndirect_sameProgram
  case stX | stXInc | stXDec | stY | stYInc | stYDec | stZ | stZInc | stZDec =>
    exact nextSameProgram_outcome fun _ => storeIndirect_sameProgram
  case lddY | lddZ | lds => exact nextSameProgram_outcome fun _ => loadFrom_sameProgram
  case stdY | stdZ | sts => exact nextSameProgram_outcome fun _ => storeTo_sameProgram
  case sbi | cbi => exact nextSameProgram_outcome fun _ => ioBitWrite_sameProgram
  case cpse | sbrc | sbrs => exact nextSameProgram_outcome fun _ => skipIf_sameProgram
  case sbic | sbis => exact nextSameProgram_bind fun _ _ _ => skipIf_sameProgram
  case lpm | lpmZ | inPort => exact nextSameProgram_bind_pure fun _ _ => ⟨rfl, rfl⟩
  case lpmZInc =>
    simp only [exec, execLpmZInc]
    split
    · exact nextSameProgram_fault s _
    · exact nextSameProgram_bind_pure fun _ _ => ⟨rfl, rfl⟩
  case outPort => exact nextSameProgram_bind_pure fun _ hu => (ioWrite_sameProgram hu :)
  case push => exact nextSameProgram_bind_pure fun _ hu => (push8_sameProgram hu :)
  case pop =>
    refine nextSameProgram_bind fun (v, u) t hu ht => ?_
    obtain rfl := pure_ok.mp ht
    exact (pop8_sameProgram hu :)
  case rcall | icall | call => exact nextSameProgram_bind_pure fun _ hu => (pushPc_sameProgram hu :)
  case ret => exact nextSameProgram_outcome fun _ => returnFromCall_sameProgram
  case reti => exact nextSameProgram_outcome fun _ => returnFromInterrupt_sameProgram
  case spm | brk => exact nextSameProgram_fault s _

theorem runInstr_nextSameProgram (s : State) : NextSameProgram s s.runInstr := by
  unfold State.runInstr
  split
  · exact exec_nextSameProgram _ s
  · exact nextSameProgram_fault s _

theorem stepCore_nextSameProgram (s : State) : NextSameProgram s s.stepCore := by
  unfold State.stepCore
  split
  · exact nextSameProgram_outcome fun _ => takeInterrupt_sameProgram
  · exact nextSameProgram_next ⟨rfl, rfl⟩
  · exact runInstr_nextSameProgram s.beginInstr

/-- Neither the environment's events nor what the machine does after them changes parameters or program memory. -/
theorem step_sameProgram {t : State} (h : step s = .next t) : SameProgram s t :=
  SameProgram.trans (takeInputs_frame s) (stepCore_nextSameProgram s.takeInputs t h)

end

/-- Settles O9: a byte of program memory and a fetched word are read from program memory and the parameters alone. -/
theorem stepKeepsProgramMemory : Obligations.StepKeepsProgramMemory := fun _ _ h =>
  have hst := step_sameProgram h
  ⟨hst.1, hst.flashByte, hst.fetchWord⟩

end Sys2Proof.Machine
end

section
/-! SUPPORT. The words the decoder rejects: the fields a masked comparison fixes, and R114's list pattern by
pattern (30_encoding.md R107, R114). -/

namespace Sys2Proof

/-! ## Fields under a mask -/

theorem field_and (w m : Word) (lo n : Nat) : field (w &&& m) lo n = field w lo n &&& field m lo n := by
  simp only [field, BitVec.toNat_and, Nat.and_div_two_pow, Nat.and_mod_two_pow]

/-- A masked comparison fixes every field that lies under the mask. -/
theorem field_of_and_eq {w m c : Word} (h : w &&& m = c) {lo n : Nat} (hm : field m lo n = 2 ^ n - 1) :
    field w lo n = field c lo n := by
  rw [← h, field_and, hm, Nat.and_two_pow_sub_one_eq_mod, field, Nat.mod_mod]

theorem field_mem_of_and_mem {w m : Word} {cs : List Word} (h : w &&& m ∈ cs) {lo n : Nat}
    (hm : field m lo n = 2 ^ n - 1) : field w lo n ∈ cs.map (field · lo n) :=
  List.mem_map.mpr ⟨w &&& m, h, (field_of_and_eq rfl hm).symm⟩

/-- Every bit of a word lies in one of the fields that the words `1001 010x xxxx yyyy` are told apart by (R110). -/
theorem word_eq_of_fields {w v : Word} (hpage : field w 9 7 = field v 9 7) (hmid : field w 4 5 = field v 4 5)
    (hlow : field w 0 4 = field v 0 4) : w = v := by
  simp only [field] at *
  exact BitVec.eq_of_toNat_eq (by omega)

@[simp] theorem onMega_p2313 (i : Instr) : onMega .p2313 i = none := rfl

/-! ## The pages of the words `1001 0...` (R110) -/

section
variable {w : Word} (p : Profile) (w1 : Word)

theorem decode?_of_load_page (h : field w 9 7 = 0b1001000) : decode? p w w1 = decodeLoad p w w1 := by
  have hnibble : field w 12 4 = 9 := by simp only [field] at *; omega
  have hpage : field w 9 3 = 0 := by simp only [field] at *; omega
  simp [decode?, decodeNibble9, hnibble, hpage]

theorem decode?_of_store_page (h : field w 9 7 = 0b1001001) : decode? p w w1 = decodeStore w w1 := by
  have hnibble : field w 12 4 = 9 := by simp only [field] at *; omega
  have hpage : field w 9 3 = 1 := by simp only [field] at *; omega
  simp [decode?, decodeNibble9, hnibble, hpage]

theorem decode?_of_misc_page (h : field w 9 7 = 0b1001010) : decode? p w w1 = decodeMisc p w w1 := by
  have hnibble : field w 12 4 = 9 := by simp only [field] at *; omega
  have hpage : field w 9 3 = 2 := by simp only [field] at *; omega
  simp [decode?, decodeNibble9, hnibble, hpage]

/-! ## The reserved patterns of both profiles (R114) -/

/-- Of the words `0000 0000 ...` only NOP is an instruction. -/
theorem decode?_none_of_zero_page (h : w &&& 0xFF00 = 0x0000) (hnop : w ≠ 0x0000) : decode? p w w1 = none := by
  have hnibble : field w 12 4 = 0 := field_of_and_eq h rfl
  have hpage : field w 10 2 = 0 := field_of_and_eq h rfl
  have hpage' : field w 8 2 = 0 := field_of_and_eq h rfl
  have hlow : field w 0 8 ≠ 0 := fun hlow => by
    have hhigh : field w 8 8 = 0 := field_of_and_eq h rfl
    have hzero : w.toNat = 0 := by simp only [field] at *; omega
    exact hnop (BitVec.eq_of_toNat_eq hzero)
  simp [decode?, decodeNibble0, hnibble, hpage, hpage', hlow]

theorem decodeLoad_none (h : field w 0 4 ∈ [0x3, 0x6, 0x7, 0x8, 0xB]) : decodeLoad p w w1 = none := by
  simp only [List.mem_cons, List.not_mem_nil, or_false] at h
  rcases h with h | h | h | h | h <;> simp [decodeLoad, h]

theorem decodeStore_none (h : field w 0 4 ∈ [0x3, 0x4, 0x5, 0x6, 0x7, 0x8, 0xB]) : decodeStore w w1 = none := by
  simp only [List.mem_cons, List.not_mem_nil, or_false] at h
  rcases h with h | h | h | h | h | h | h <;> simp [decodeStore, h]

/-- A load and a store have these low nibbles in common that mean neither. -/
theorem decode?_none_of_load_store_page (h : w &&& 0xFC00 = 0x9000)
    (hlow : w &&& 0x000F ∈ ([0x3, 0x6, 0x7, 0x8, 0xB] : List Word)) : decode? p w w1 = none := by
  have hlow' : field w 0 4 ∈ [0x3, 0x6, 0x7, 0x8, 0xB] := field_mem_of_and_mem hlow rfl
  have hpage : field w 10 6 = 0b100100 := field_of_and_eq h rfl
  have hpages : field w 9 7 = 0b1001000 ∨ field w 9 7 = 0b1001001 := by simp only [field] at *; omega
  have hsub : [0x3, 0x6, 0x7, 0x8, 0xB] ⊆ [0x3, 0x4, 0x5, 0x6, 0x7, 0x8, 0xB] := by decide
  rcases hpages with hload | hstore
  · rw [decode?_of_load_page p w1 hload, decodeLoad_none p w1 hlow']
  · rw [decode?_of_store_page p w1 hstore, decodeStore_none w1 (hsub hlow')]

theorem decode?_none_of_store_page (h : w &&& 0xFE00 = 0x9200)
    (hlow : w &&& 0x000F ∈ ([0x4, 0x5] : List Word)) : decode? p w w1 = none := by
  have hlow' : field w 0 4 ∈ [0x4, 0x5] := field_mem_of_and_mem hlow rfl
  have hsub : [0x4, 0x5] ⊆ [0x3, 0x4, 0x5, 0x6, 0x7, 0x8, 0xB] := by decide
  rw [decode?_of_store_page p w1 (field_of_and_eq h rfl), decodeStore_none w1 (hsub hlow')]

theorem decode?_none_of_misc_4_or_B (h : w &&& 0xFE0F = 0x9404 ∨ w &&& 0xFE0F = 0x940B) :
    decode? p w w1 = none := by
  rcases h with h | h
  · have hlow : field w 0 4 = 0x4 := field_of_and_eq h rfl
    have hmid : field w 1 3 = 2 := field_of_and_eq h rfl
    simp [decode?_of_misc_page p w1 (field_of_and_eq h rfl), decodeMisc, hlow, hmid]
  · have hlow : field w 0 4 = 0xB := field_of_and_eq h rfl
    have hmid : field w 1 3 = 5 := field_of_and_eq h rfl
    simp [decode?_of_misc_page p w1 (field_of_and_eq h rfl), decodeMisc, hlow, hmid]

/-- Of the words `1001 010x xxxx 1001` only IJMP and ICALL are instructions. -/
theorem decode?_none_of_misc_9 (h : w &&& 0xFE0F = 0x9409) (hijmp : w ≠ 0x9409) (hicall : w ≠ 0x9509) :
    decode? p w w1 = none := by
  have hpage : field w 9 7 = 0b1001010 := field_of_and_eq h rfl
  have hlow : field w 0 4 = 0x9 := field_of_and_eq h rfl
  have hijmp' : field w 4 5 ≠ 0b00000 := fun hmid => hijmp (word_eq_of_fields hpage hmid hlow)
  have hicall' : field w 4 5 ≠ 0b10000 := fun hmid => hicall (word_eq_of_fields hpage hmid hlow)
  simp [decode?_of_misc_page p w1 hpage, decodeMisc, hlow, hijmp', hicall']

theorem decode?_none_of_system_page (h : w &&& 0xFF0F = 0x9508)
    (hmid : w &&& 0x00F0 ∈ ([0x20, 0x30, 0x40, 0x50, 0x60, 0x70, 0xB0, 0xD0, 0xF0] : List Word)) :
    decode? p w w1 = none := by
  have hpage : field w 9 7 = 0b1001010 := field_of_and_eq h rfl
  have hlow : field w 0 4 = 0x8 := field_of_and_eq h rfl
  have hhalf : field w 8 1 = 1 := field_of_and_eq h rfl
  have hmid' : field w 4 4 ∈ [0x2, 0x3, 0x4, 0x5, 0x6, 0x7, 0xB, 0xD, 0xF] := field_mem_of_and_mem hmid rfl
  rw [decode?_of_misc_page p w1 hpage]
  simp only [List.mem_cons, List.not_mem_nil, or_false] at hmid'
  rcases hmid' with h | h | h | h | h | h | h | h | h <;> simp [decodeMisc, decodeSystem, hlow, hhalf, h]

/-- The words `1111 1xxx xxxx 1xxx`. -/
theorem decode?_none_of_bit_page (h : w &&& 0xF808 = 0xF808) : decode? p w w1 = none := by
  have hnibble : field w 12 4 = 0xF := field_of_and_eq h rfl
  have hhalf : field w 11 1 = 1 := field_of_and_eq h rfl
  have hlow : field w 3 1 = 1 := field_of_and_eq h rfl
  simp [decode?, decodeNibbleF, hnibble, hhalf, hlow]

/-! ## The words only PMEGA has (R107) -/

/-- MOVW, MULS, and MULSU with the fractional multiplies: the words `0000 0001` to `0000 0011`. -/
theorem decode?_p2313_none_of_multiply (h : w &&& 0xFF00 = 0x0100 ∨ w &&& 0xFF00 = 0x0200 ∨ w &&& 0xFF00 = 0x0300) :
    decode? .p2313 w w1 = none := by
  have hnibble : field w 12 4 = 0 := by rcases h with h | h | h <;> exact field_of_and_eq h rfl
  have hpage : field w 10 2 = 0 := by rcases h with h | h | h <;> exact field_of_and_eq h rfl
  have hkind : field w 8 2 ≠ 0 := by
    rcases h with h | h | h <;> rw [field_of_and_eq h rfl] <;> decide
  simp [decode?, decodeNibble0, hnibble, hpage, hkind]

/-- JMP and CALL. -/
theorem decode?_p2313_none_of_jmp_call (h : w &&& 0xFE0C = 0x940C) : decode? .p2313 w w1 = none := by
  have hpage : field w 9 7 = 0b1001010 := field_of_and_eq h rfl
  have hlow : field w 2 2 = 3 := field_of_and_eq h rfl
  have hlow' : field w 0 4 = 0xC ∨ field w 0 4 = 0xD ∨ field w 0 4 = 0xE ∨ field w 0 4 = 0xF := by
    simp only [field] at *; omega
  rw [decode?_of_misc_page .p2313 w1 hpage]
  rcases hlow' with h | h | h | h <;> simp [decodeMisc, h]

/-- LPM with an operand. -/
theorem decode?_p2313_none_of_lpm (h : w &&& 0xFE0E = 0x9004) : decode? .p2313 w w1 = none := by
  have hlow : field w 1 3 = 2 := field_of_and_eq h rfl
  have hlow' : field w 0 4 = 0x4 ∨ field w 0 4 = 0x5 := by simp only [field] at *; omega
  rw [decode?_of_load_page .p2313 w1 (field_of_and_eq h rfl)]
  rcases hlow' with h | h <;> simp [decodeLoad, h]

/-- MUL. -/
theorem decode?_p2313_none_of_mul (h : w &&& 0xFC00 = 0x9C00) : decode? .p2313 w w1 = none := by
  have hnibble : field w 12 4 = 9 := field_of_and_eq h rfl
  have hpages : field w 10 2 = 3 := field_of_and_eq h rfl
  have hpage' : field w 9 3 = 6 ∨ field w 9 3 = 7 := by simp only [field] at *; omega
  rcases hpage' with h | h <;> simp [decode?, decodeNibble9, hnibble, h]

/-- BREAK and SPM. -/
theorem decode?_p2313_none_of_break_spm (h : w = 0x9598 ∨ w = 0x95E8) : decode? .p2313 w w1 = none := by
  rcases h with rfl | rfl <;> rfl

/-! ## R114's list -/

theorem decode?_none_of_isReserved (h : Machine.isReserved p w = true) : decode? p w w1 = none := by
  simp only [Machine.isReserved, Bool.or_eq_true, Bool.and_eq_true, beq_iff_eq, bne_iff_ne,
    List.contains_iff_mem] at h
  rcases h with (((((((⟨h, hnop⟩ | ⟨h, hlow⟩) | ⟨h, hlow⟩) | h) | h) | ⟨⟨h, hijmp⟩, hicall⟩) | ⟨h, hmid⟩) | h) |
    ⟨rfl, (((((hmultiply | hjmp) | hlpm) | hmul) | hbreak) | hspm)⟩
  · exact decode?_none_of_zero_page p w1 h hnop
  · exact decode?_none_of_load_store_page p w1 h hlow
  · exact decode?_none_of_store_page p w1 h hlow
  · exact decode?_none_of_misc_4_or_B p w1 (.inl h)
  · exact decode?_none_of_misc_4_or_B p w1 (.inr h)
  · exact decode?_none_of_misc_9 p w1 h hijmp hicall
  · exact decode?_none_of_system_page p w1 h hmid
  · exact decode?_none_of_bit_page p w1 h
  · exact decode?_p2313_none_of_multiply w1 (or_assoc.mp hmultiply)
  · exact decode?_p2313_none_of_jmp_call w1 hjmp
  · exact decode?_p2313_none_of_lpm w1 hlpm
  · exact decode?_p2313_none_of_mul w1 hmul
  · exact decode?_p2313_none_of_break_spm w1 (.inl hbreak)
  · exact decode?_p2313_none_of_break_spm w1 (.inr hspm)

theorem decode_error_of_isReserved (h : Machine.isReserved p w = true) : decode p w w1 = .error (.reserved w) :=
  decode_error.mpr ⟨decode?_none_of_isReserved p w1 h, rfl⟩

end

end Sys2Proof
end

section
/-! SUPPORT. The PC after a relative step and after a skip (10_state.md R29; 43_branch.md R294), and the I/O
instructions as accesses of the data space (20_memory.md R61; 43_branch.md R272, R273). -/

namespace Sys2Proof.Machine

/-! ## The PC -/

theorem toNat_wrapTo (n : Nat) (w : Word) : (wrapTo n w).toNat = w.toNat % 2 ^ n := by
  rw [wrapTo, BitVec.toNat_ofNat, Nat.mod_eq_of_lt ((Nat.mod_le _ _).trans_lt w.isLt)]

/-- The PC `d` words on: the sum modulo 2^16 is the sum modulo `2^PCW`, PCW being at most 16 (10_state.md R29). -/
theorem goesBy_setPc {s : State} (hp : s.cfg.pcw ≤ 16) (d : Int) :
    GoesBy s (s.setPc (s.pc + BitVec.ofInt 16 d)) d := by
  have hsum : s.pc + BitVec.ofInt 16 d = BitVec.ofInt 16 (s.pc.toNat + d) := by
    rw [BitVec.ofInt_add, BitVec.ofInt_natCast, BitVec.ofNat_toNat, BitVec.setWidth_eq]
  have hdvd : (2 : Int) ^ s.cfg.pcw ∣ 2 ^ 16 := pow_dvd_pow 2 hp
  rw [GoesBy, setPc_pc, toNat_wrapTo, hsum, BitVec.toNat_ofInt]
  push_cast
  rw [Int.toNat_of_nonneg (Int.emod_nonneg _ (by decide))]
  exact Int.emod_emod_of_dvd _ hdvd

theorem goesBy_advance {s : State} (hp : s.cfg.pcw ≤ 16) : GoesBy s (s.advance 1) 1 := goesBy_setPc hp 1

theorem frameRegs_setPc (s : State) (t : Word) : FrameRegs [] [] s (s.setPc t) :=
  ⟨fun _ _ => rfl, fun _ _ => rfl, ⟨fun _ => rfl, fun _ => rfl⟩, ⟨rfl, rfl, rfl, rfl, rfl, rfl, rfl⟩, rfl, rfl⟩

/-! ## Skips -/

theorem wordLength_eq_one_or_two (p : Profile) (w : Word) : wordLength p w = 1 ∨ wordLength p w = 2 := by
  unfold wordLength
  split
  · exact .inr rfl
  · split
    · exact .inr rfl
    · exact .inl rfl

/-- The length SkipLen answers, as a PC offset (43_branch.md R294). -/
theorem ofInt_wordLength (p : Profile) (w : Word) :
    (if wordLength p w = 2 then 2 else 1 : Word) = BitVec.ofInt 16 (wordLength p w) := by
  rcases wordLength_eq_one_or_two p w with h | h <;> rw [h] <;> rfl

theorem fetchWord_of_flashWords_le {s : State} {w : Word} (h : s.cfg.flashWords ≤ w.toNat) :
    s.fetchWord w = .error (.progAddressOutOfRange (2 * w.toNat)) :=
  if_neg (Nat.not_lt.mpr h)

theorem decodeAt_of_isReserved {s : State} {w : Word} (h : isReserved s.cfg.profile w = true) (a w1 : Word) :
    s.decodeAt a w w1 = .error (.reservedOpcode a w) := by
  rw [State.decodeAt, decode_error_of_isReserved s.cfg.profile w1 h]

/-- The skip not taken, the skip over a measured word, and the two faults of the measuring. -/
theorem skipsIf_of_exec {s : State} (hp : s.cfg.pcw ≤ 16) {i : Instr} {c : Bool}
    (hi : exec i s = outcome (s.skipIf c)) : SkipsIf i c s := by
  rw [SkipsIf, hi]
  refine ⟨?stays, ?skips, ?reserved, ?outside⟩
  case stays =>
    rintro rfl
    exact ⟨s.advance 1, rfl, frameRegs_setPc s _, goesBy_advance hp⟩
  case skips =>
    rintro rfl w j hw hj
    have hlen : s.skipLen (s.pcPlus 1) = .ok (BitVec.ofInt 16 (wordLength s.cfg.profile w)) :=
      skipLen_ok.mpr ⟨w, hw, j, hj, ofInt_wordLength _ w⟩
    have hto : s.pc + 1 + BitVec.ofInt 16 (wordLength s.cfg.profile w) =
        s.pc + BitVec.ofInt 16 (1 + wordLength s.cfg.profile w) := by
      rw [BitVec.ofInt_add, ← BitVec.add_assoc]
      rfl
    exact ⟨_, outcome_next.mpr (skipIf_ok.mpr (.inr ⟨rfl, _, hlen, rfl⟩)), frameRegs_setPc s _,
      hto ▸ goesBy_setPc hp _⟩
  case reserved =>
    rintro rfl w hw hres
    have hlen : s.skipLen (s.pcPlus 1) = .error (.reservedOpcode (s.pcPlus 1) w) :=
      bind_error.mpr (.inr ⟨w, hw, bind_error.mpr (.inl (decodeAt_of_isReserved hres _ _))⟩)
    exact outcome_fault.mpr (bind_error.mpr (.inl hlen))
  case outside =>
    rintro rfl hout
    have hlen : s.skipLen (s.pcPlus 1) = .error (.progAddressOutOfRange (2 * (s.pcPlus 1).toNat)) :=
      bind_error.mpr (.inl (fetchWord_of_flashWords_le hout))
    exact outcome_fault.mpr (bind_error.mpr (.inl hlen))

/-! ## I/O instructions -/

section
variable {s : State} {q : BitVec 5} {b : BitNo} {x : Byte}

/-- SBI (`v` is 1) and CBI (`v` is 0) write back the byte that differs from the one read in bit `b` alone. -/
theorem ioBitWrite_of_bits {a : IoAddr} {v : Bool} {y : Byte} {u : State} (hx : s.ioRead a = .ok x)
    (hy : ∀ n : BitNo, byteBit y n = if n = b then v else byteBit x n) (hu : s.ioWrite a y = .ok u) :
    s.ioBitWrite a b v = .ok (u.advance 1) := by
  have hset : setByteBit x b v = y := byte_ext fun n => by rw [byteBit_setByteBit, hy]
  exact ioBitWrite_ok.mpr ⟨x, u, hx, hset ▸ hu, rfl⟩

theorem exec_sbic_eq (hx : s.ioRead (lowIoAddr q) = .ok x) :
    exec (.sbic q b) s = outcome (s.skipIf (!byteBit x b)) := by
  simp only [exec, execSbic, hx, bind, Except.bind]

theorem exec_sbis_eq (hx : s.ioRead (lowIoAddr q) = .ok x) :
    exec (.sbis q b) s = outcome (s.skipIf (byteBit x b)) := by
  simp only [exec, execSbis, hx, bind, Except.bind]

end

section
variable {s t : State} {p : IoAddr} {a : Word} {r : Reg} (ha : a.toNat = p.toNat + 0x20)
include ha

/-- LDS is one word longer than IN and so ends further on. -/
theorem exec_lds_of_in (h : exec (.inPort r p) s = .next t) :
    ∃ u, exec (.lds r a) s = .next u ∧ u = { t with pc := u.pc } := by
  obtain ⟨v, hv, ht⟩ := bind_ok.mp (outcome_next.mp h)
  obtain rfl := pure_ok.mp ht
  exact ⟨_, outcome_next.mpr (loadFrom_ok.mpr ⟨v, (memRead_eq_ioRead ha).trans hv, rfl⟩), rfl⟩

theorem exec_sts_of_out (h : exec (.outPort p r) s = .next t) :
    ∃ u, exec (.sts a r) s = .next u ∧ u = { t with pc := u.pc } := by
  obtain ⟨w, hw, ht⟩ := bind_ok.mp (outcome_next.mp h)
  obtain rfl := pure_ok.mp ht
  exact ⟨_, outcome_next.mpr (storeTo_ok.mpr ⟨w, (memWrite_eq_ioWrite ha _).trans hw, rfl⟩), rfl⟩

end

/-- Settles O15: the I/O block of the data space is the I/O registers, so each instruction that names an I/O register
does what the access of its data address does. -/
theorem ioSpaceIsDataSpace : Obligations.IoSpaceIsDataSpace := by
  intro s p a r v ha
  refine ⟨(memRead_eq_ioRead ha).symm, (memWrite_eq_ioWrite ha v).symm, fun t => exec_lds_of_in ha,
    fun t => exec_sts_of_out ha, ?_⟩
  rintro q b x rfl hx
  rw [memRead_eq_ioRead ha] at hx
  refine ⟨fun y u hy hu => ?sbi, fun y u hy hu => ?cbi, fun hp => ⟨?sbic, ?sbis⟩⟩
  case sbi | cbi =>
    rw [memWrite_eq_ioWrite ha] at hu
    exact outcome_next.mpr (ioBitWrite_of_bits hx hy hu)
  case sbic => exact skipsIf_of_exec hp (exec_sbic_eq hx)
  case sbis => exact skipsIf_of_exec hp (exec_sbis_eq hx)

end Sys2Proof.Machine
end

section
/-! SUPPORT. Operands as fields of a word, and each format of the encoder field by field: when the words read begin with
an instruction's (30_encoding.md R92 to R107). -/

namespace Sys2Proof

/-! ## Operands read from fields -/

theorem finOfNat_eq {m n : Nat} [NeZero m] (h : n < m) {x : Fin m} : Fin.ofNat m n = x ↔ n = x.val := by
  rw [Fin.ext_iff, Fin.val_ofNat, Nat.mod_eq_of_lt h]

theorem bitVecOfNat_eq {m n : Nat} (h : n < 2 ^ m) {x : BitVec m} : BitVec.ofNat m n = x ↔ n = x.toNat := by
  rw [BitVec.toNat_eq, BitVec.toNat_ofNat, Nat.mod_eq_of_lt h]

section
variable {w w1 : Word}

theorem fieldD_eq {d : Reg} : fieldD w = d ↔ field w 4 5 = d.val := finOfNat_eq (field_lt w 4 5)

theorem fieldB_eq {b : BitNo} : fieldB w = b ↔ field w 0 3 = b.val := finOfNat_eq (field_lt w 0 3)

theorem fieldS_eq {s : BitNo} : fieldS w = s ↔ field w 4 3 = s.val := finOfNat_eq (field_lt w 4 3)

theorem fieldA5_eq {a : BitVec 5} : fieldA5 w = a ↔ field w 3 5 = a.toNat := bitVecOfNat_eq (field_lt w 3 5)

theorem fieldK7_eq {k : BitVec 7} : fieldK7 w = k ↔ field w 3 7 = k.toNat := bitVecOfNat_eq (field_lt w 3 7)

theorem fieldK12_eq {k : BitVec 12} : fieldK12 w = k ↔ field w 0 12 = k.toNat := bitVecOfNat_eq (field_lt w 0 12)

theorem fieldR_eq {r : Reg} : fieldR w = r ↔ field w 9 1 = r.val / 16 ∧ field w 0 4 = r.val % 16 := by
  have hhi := field_lt w 9 1
  have hlo := field_lt w 0 4
  rw [fieldR, finOfNat_eq (by omega)]
  omega

theorem upperReg_eq {lo : Nat} {r : Reg} :
    Fin.ofNat 32 (16 + field w lo 4) = r ↔ r.upper = true ∧ field w lo 4 = r.val % 16 := by
  have h := field_lt w lo 4
  rw [finOfNat_eq (by omega), Reg.upper, decide_eq_true_iff]
  omega

theorem fieldDUpper_eq {d : Reg} : fieldDUpper w = d ↔ d.upper = true ∧ field w 4 4 = d.val % 16 := upperReg_eq

theorem lowUpperReg_eq {lo : Nat} {r : Reg} :
    Fin.ofNat 32 (16 + field w lo 3) = r ↔ r.lowUpper = true ∧ field w lo 3 = r.val % 8 := by
  have h := field_lt w lo 3
  rw [finOfNat_eq (by omega), Reg.lowUpper, decide_eq_true_iff]
  omega

theorem evenReg_eq {lo : Nat} {r : Reg} :
    Fin.ofNat 32 (2 * field w lo 4) = r ↔ r.even = true ∧ field w lo 4 = r.val / 2 := by
  have h := field_lt w lo 4
  rw [finOfNat_eq (by omega), Reg.even, decide_eq_true_iff]
  omega

theorem fieldPair_eq {d : Reg} : fieldPair w = d ↔ d.wordPair = true ∧ field w 4 2 = d.val / 2 % 4 := by
  have h := field_lt w 4 2
  rw [fieldPair, finOfNat_eq (by omega), Reg.wordPair, decide_eq_true_iff]
  omega

theorem fieldK8_eq {k : Byte} : fieldK8 w = k ↔ field w 8 4 = k.toNat / 16 ∧ field w 0 4 = k.toNat % 16 := by
  have hhi := field_lt w 8 4
  have hlo := field_lt w 0 4
  rw [fieldK8, bitVecOfNat_eq (by omega)]
  omega

theorem fieldK6_eq {k : BitVec 6} : fieldK6 w = k ↔ field w 6 2 = k.toNat / 16 ∧ field w 0 4 = k.toNat % 16 := by
  have hhi := field_lt w 6 2
  have hlo := field_lt w 0 4
  rw [fieldK6, bitVecOfNat_eq (by omega)]
  omega

theorem fieldA6_eq {a : IoAddr} : fieldA6 w = a ↔ field w 9 2 = a.toNat / 16 ∧ field w 0 4 = a.toNat % 16 := by
  have hhi := field_lt w 9 2
  have hlo := field_lt w 0 4
  rw [fieldA6, bitVecOfNat_eq (by omega)]
  omega

theorem fieldQ_eq {q : BitVec 6} :
    fieldQ w = q ↔ field w 13 1 = q.toNat / 32 ∧ field w 10 2 = q.toNat / 8 % 4 ∧ field w 0 3 = q.toNat % 8 := by
  have hhi := field_lt w 13 1
  have hmid := field_lt w 10 2
  have hlo := field_lt w 0 3
  rw [fieldQ, bitVecOfNat_eq (by omega)]
  omega

theorem fieldK22_eq {k : BitVec 22} :
    fieldK22 w w1 = k ↔
      field w 4 5 = k.toNat / 2 ^ 17 ∧ field w 0 1 = k.toNat / 2 ^ 16 % 2 ∧ w1.toNat = k.toNat % 2 ^ 16 := by
  have hhi := field_lt w 4 5
  have hmid := field_lt w 0 1
  have hlo := w1.isLt
  rw [fieldK22, bitVecOfNat_eq (by omega)]
  omega

end

theorem fieldDUpper_upper (w : Word) : (fieldDUpper w).upper = true := (fieldDUpper_eq.mp rfl).1

theorem fieldPair_wordPair (w : Word) : (fieldPair w).wordPair = true := (fieldPair_eq.mp rfl).1

theorem upperReg_upper (w : Word) (lo : Nat) : Reg.upper (Fin.ofNat 32 (16 + field w lo 4)) = true :=
  (upperReg_eq.mp rfl).1

theorem lowUpperReg_lowUpper (w : Word) (lo : Nat) : Reg.lowUpper (Fin.ofNat 32 (16 + field w lo 3)) = true :=
  (lowUpperReg_eq.mp rfl).1

theorem evenReg_even (w : Word) (lo : Nat) : Reg.even (Fin.ofNat 32 (2 * field w lo 4)) = true := (evenReg_eq.mp rfl).1

/-! ## The words of each format, field by field (R93 to R107) -/

theorem word_begins {v w w1 : Word} : [v] <+: [w, w1] ↔ w = v := by simp [eq_comm]

theorem pair_begins {x k w w1 : Word} : [x, k] <+: [w, w1] ↔ [x] <+: [w, w1] ∧ k = w1 := by simp

theorem ofNat_begins {n : Nat} {w w1 : Word} (hn : n < 2 ^ 16) :
    [BitVec.ofNat 16 n] <+: [w, w1] ↔ field w 0 16 = n := by
  rw [word_begins, eq_comm, bitVecOfNat_eq hn, eq_comm, field, Nat.pow_zero, Nat.div_one, Nat.mod_eq_of_lt w.isLt]

theorem field_append (w : Word) (lo a b : Nat) : field w lo (a + b) = field w (lo + a) b * 2 ^ a + field w lo a := by
  simp only [field, Nat.pow_add, Nat.mod_mul, ← Nat.div_div_eq_div_mul]
  rw [Nat.add_comm, Nat.mul_comm]

/-- A field has a number's digits if its upper and its lower part have them; by this a format's word, written as a sum,
is taken apart field by field. -/
theorem field_append_eq (lo a b : Nat) {w : Word} {q x : Nat} (hx : x < 2 ^ a) :
    field w lo (a + b) = q * 2 ^ a + x ↔ field w (lo + a) b = q ∧ field w lo a = x := by
  rw [field_append]
  refine ⟨fun h => ?_, fun ⟨hq, hx⟩ => by rw [hq, hx]⟩
  have hdiv := congrArg (· / 2 ^ a) h
  have hmod := congrArg (· % 2 ^ a) h
  simp only [Nat.mul_comm _ (2 ^ a), Nat.mul_add_div (Nat.two_pow_pos a), Nat.mul_add_mod,
    Nat.div_eq_of_lt, Nat.mod_eq_of_lt, field_lt, hx, Nat.add_zero] at hdiv hmod
  exact ⟨hdiv, hmod⟩

section
variable {w w1 : Word}

theorem encRR_begins {op : Nat} {d r : Reg} (hop : op < 64) :
    encRR op d r <+: [w, w1] ↔ field w 12 4 = op / 4 ∧ field w 10 2 = op % 4 ∧ fieldD w = d ∧ fieldR w = r := by
  have hsum : op * 1024 + r.val / 16 * 512 + d.val * 16 + r.val % 16 =
    (((op / 4 * 2 ^ 2 + op % 4) * 2 ^ 1 + r.val / 16) * 2 ^ 5 + d.val) * 2 ^ 4 + r.val % 16 := by omega
  rw [encRR, ofNat_begins (by omega), fieldD_eq, fieldR_eq, hsum, field_append_eq 0 4 12 (by omega),
    field_append_eq 4 5 7 (by omega), field_append_eq 9 1 6 (by omega), field_append_eq 10 2 4 (by omega)]
  tauto


theorem encRI_begins {op : Nat} {d : Reg} {k : Byte} (hop : op < 16) (hd : d.upper = true) :
    encRI op d k <+: [w, w1] ↔ field w 12 4 = op ∧ fieldDUpper w = d ∧ fieldK8 w = k := by
  have hsum : op * 4096 + k.toNat / 16 * 256 + d.val % 16 * 16 + k.toNat % 16 =
    ((op * 2 ^ 4 + k.toNat / 16) * 2 ^ 4 + d.val % 16) * 2 ^ 4 + k.toNat % 16 := by omega
  rw [encRI, ofNat_begins (by omega), fieldDUpper_eq, fieldK8_eq, hsum, field_append_eq 0 4 12 (by omega),
    field_append_eq 4 4 8 (by omega), field_append_eq 8 4 4 (by omega)]
  tauto

theorem encLS_begins {st m : Nat} {d : Reg} (hst : st < 8) (hm : m < 16) :
    [encLS st d m] <+: [w, w1] ↔ field w 9 7 = 0b1001000 + st ∧ field w 0 4 = m ∧ fieldD w = d := by
  have hsum : 0x9000 + st * 512 + d.val * 16 + m = ((0b1001000 + st) * 2 ^ 5 + d.val) * 2 ^ 4 + m := by omega
  rw [encLS, ofNat_begins (by omega), fieldD_eq, hsum, field_append_eq 0 4 12 (by omega),
    field_append_eq 4 5 7 (by omega)]
  tauto

theorem encLS_const_begins {st m : Nat} {d : Reg} {k : Word} (hst : st < 8) (hm : m < 16) :
    [encLS st d m, k] <+: [w, w1] ↔ field w 9 7 = 0b1001000 + st ∧ field w 0 4 = m ∧ fieldD w = d ∧ k = w1 := by
  rw [pair_begins, encLS_begins hst hm]
  tauto

theorem encR1_begins {op : Nat} {d : Reg} (hop : op < 16) :
    encR1 d op <+: [w, w1] ↔ field w 9 7 = 0b1001010 ∧ field w 0 4 = op ∧ fieldD w = d := by
  have hls : encR1 d op = [encLS 2 d op] := rfl
  rw [hls, encLS_begins (by decide) hop]

theorem encLDD_begins {st y : Nat} {q : BitVec 6} {d : Reg} (hst : st < 2) (hy : y < 2) :
    encLDD st q d y <+: [w, w1] ↔
      field w 14 2 = 2 ∧ field w 12 1 = 0 ∧ field w 9 1 = st ∧ field w 3 1 = y ∧
        fieldD w = d ∧ fieldQ w = q := by
  have hsum : 0x8000 + q.toNat / 32 * 8192 + q.toNat / 8 % 4 * 1024 + st * 512 + d.val * 16 + y * 8 + q.toNat % 8 =
    ((((((2 * 2 ^ 1 + q.toNat / 32) * 2 ^ 1 + 0) * 2 ^ 2 + q.toNat / 8 % 4) * 2 ^ 1 + st) * 2 ^ 5 + d.val) * 2 ^ 1 + y)
      * 2 ^ 3 + q.toNat % 8 := by omega
  rw [encLDD, ofNat_begins (by omega), fieldD_eq, fieldQ_eq, hsum, field_append_eq 0 3 13 (by omega),
    field_append_eq 3 1 12 (by omega), field_append_eq 4 5 7 (by omega), field_append_eq 9 1 6 (by omega),
    field_append_eq 10 2 4 (by omega), field_append_eq 12 1 3 (by omega), field_append_eq 13 1 2 (by omega)]
  tauto

theorem encIW_begins {o : Nat} {d : Reg} {k : BitVec 6} (ho : o < 2) (hd : d.wordPair = true) :
    encIW o d k <+: [w, w1] ↔
      field w 12 4 = 9 ∧ field w 9 3 = 3 ∧ field w 8 1 = o ∧ fieldPair w = d ∧ fieldK6 w = k := by
  have hsum : 0x9600 + o * 256 + k.toNat / 16 * 64 + d.val / 2 % 4 * 16 + k.toNat % 16 =
    ((((9 * 2 ^ 3 + 3) * 2 ^ 1 + o) * 2 ^ 2 + k.toNat / 16) * 2 ^ 2 + d.val / 2 % 4) * 2 ^ 4 + k.toNat % 16 := by
    omega
  rw [encIW, ofNat_begins (by omega), fieldPair_eq, fieldK6_eq, hsum, field_append_eq 0 4 12 (by omega),
    field_append_eq 4 2 10 (by omega), field_append_eq 6 2 8 (by omega), field_append_eq 8 1 7 (by omega),
    field_append_eq 9 3 4 (by omega)]
  tauto

theorem encIO_begins {st : Nat} {a : IoAddr} {d : Reg} (hst : st < 2) :
    encIO st a d <+: [w, w1] ↔ field w 12 4 = 0xB ∧ field w 11 1 = st ∧ fieldA6 w = a ∧ fieldD w = d := by
  have hsum : 0xB000 + st * 2048 + a.toNat / 16 * 512 + d.val * 16 + a.toNat % 16 =
    (((0xB * 2 ^ 1 + st) * 2 ^ 2 + a.toNat / 16) * 2 ^ 5 + d.val) * 2 ^ 4 + a.toNat % 16 := by omega
  rw [encIO, ofNat_begins (by omega), fieldD_eq, fieldA6_eq, hsum, field_append_eq 0 4 12 (by omega),
    field_append_eq 4 5 7 (by omega), field_append_eq 9 2 5 (by omega), field_append_eq 11 1 4 (by omega)]
  tauto

theorem encIOB_begins {o : Nat} {a : BitVec 5} {b : BitNo} (ho : o < 4) :
    encIOB o a b <+: [w, w1] ↔
      field w 12 4 = 9 ∧ field w 9 3 = 4 + o / 2 ∧ field w 8 1 = o % 2 ∧ fieldA5 w = a ∧ fieldB w = b := by
  have hsum : 0x9800 + o * 256 + a.toNat * 8 + b.val =
    (((9 * 2 ^ 3 + (4 + o / 2)) * 2 ^ 1 + o % 2) * 2 ^ 5 + a.toNat) * 2 ^ 3 + b.val := by omega
  rw [encIOB, ofNat_begins (by omega), fieldA5_eq, fieldB_eq, hsum, field_append_eq 0 3 13 (by omega),
    field_append_eq 3 5 8 (by omega), field_append_eq 8 1 7 (by omega), field_append_eq 9 3 4 (by omega)]
  tauto

theorem encRB_begins {o : Nat} {d : Reg} {b : BitNo} (ho : o < 4) :
    encRB o d b <+: [w, w1] ↔
      field w 12 4 = 0xF ∧ field w 11 1 = 1 ∧ field w 9 2 = o ∧ field w 3 1 = 0 ∧
        fieldD w = d ∧ fieldB w = b := by
  have hsum : 0xF800 + o * 512 + d.val * 16 + b.val =
    ((((0xF * 2 ^ 1 + 1) * 2 ^ 2 + o) * 2 ^ 5 + d.val) * 2 ^ 1 + 0) * 2 ^ 3 + b.val := by omega
  rw [encRB, ofNat_begins (by omega), fieldD_eq, fieldB_eq, hsum, field_append_eq 0 3 13 (by omega),
    field_append_eq 3 1 12 (by omega), field_append_eq 4 5 7 (by omega), field_append_eq 9 2 5 (by omega),
    field_append_eq 11 1 4 (by omega)]
  tauto

theorem encBR_begins {o : Nat} {s : BitNo} {k : BitVec 7} (ho : o < 2) :
    encBR o s k <+: [w, w1] ↔
      field w 12 4 = 0xF ∧ field w 11 1 = 0 ∧ field w 10 1 = o ∧ fieldB w = s ∧ fieldK7 w = k := by
  have hsum : 0xF000 + o * 1024 + k.toNat * 8 + s.val =
    (((0xF * 2 ^ 1 + 0) * 2 ^ 1 + o) * 2 ^ 7 + k.toNat) * 2 ^ 3 + s.val := by omega
  rw [encBR, ofNat_begins (by omega), fieldB_eq, fieldK7_eq, hsum, field_append_eq 0 3 13 (by omega),
    field_append_eq 3 7 6 (by omega), field_append_eq 10 1 5 (by omega), field_append_eq 11 1 4 (by omega)]
  tauto

theorem encREL_begins {o : Nat} {k : BitVec 12} (ho : o < 4) :
    encREL o k <+: [w, w1] ↔ field w 12 4 = 0xC + o ∧ fieldK12 w = k := by
  have hsum : 0xC000 + o * 4096 + k.toNat = (0xC + o) * 2 ^ 12 + k.toNat := by omega
  rw [encREL, ofNat_begins (by omega), fieldK12_eq, hsum, field_append_eq 0 12 4 (by omega)]

theorem encSREG_begins {o : Nat} {s : BitNo} (ho : o < 2) :
    encSREG o s <+: [w, w1] ↔
      field w 9 7 = 0b1001010 ∧ field w 0 4 = 8 ∧ field w 8 1 = 0 ∧ field w 7 1 = o ∧ fieldS w = s := by
  have hsum : 0x9408 + o * 128 + s.val * 16 =
    (((0b1001010 * 2 ^ 1 + 0) * 2 ^ 1 + o) * 2 ^ 3 + s.val) * 2 ^ 4 + 8 := by omega
  rw [encSREG, ofNat_begins (by omega), fieldS_eq, hsum, field_append_eq 0 4 12 (by omega),
    field_append_eq 4 3 9 (by omega), field_append_eq 7 1 8 (by omega), field_append_eq 8 1 7 (by omega)]
  tauto

theorem encMUL3_begins {o7 o3 : Nat} {d r : Reg} (ho7 : o7 < 2) (ho3 : o3 < 2) (hd : d.lowUpper = true)
    (hr : r.lowUpper = true) :
    encMUL3 o7 o3 d r <+: [w, w1] ↔
      (field w 12 4 = 0 ∧ field w 10 2 = 0 ∧ field w 8 2 = 3) ∧ field w 7 1 = o7 ∧ field w 3 1 = o3 ∧
        Fin.ofNat 32 (16 + field w 4 3) = d ∧ Fin.ofNat 32 (16 + field w 0 3) = r := by
  have hsum : 0x0300 + o7 * 128 + d.val % 8 * 16 + o3 * 8 + r.val % 8 =
    (((((0 * 2 ^ 2 + 0) * 2 ^ 2 + 3) * 2 ^ 1 + o7) * 2 ^ 3 + d.val % 8) * 2 ^ 1 + o3) * 2 ^ 3 + r.val % 8 := by omega
  rw [encMUL3, ofNat_begins (by omega), lowUpperReg_eq, lowUpperReg_eq, hsum, field_append_eq 0 3 13 (by omega),
    field_append_eq 3 1 12 (by omega), field_append_eq 4 3 9 (by omega), field_append_eq 7 1 8 (by omega),
    field_append_eq 8 2 6 (by omega), field_append_eq 10 2 4 (by omega)]
  tauto

/-- The words `0000 00oo dddd rrrr` of MOVW and MULS (R107). -/
theorem nibblePair_begins {o d r : Nat} (ho : o < 4) (hd : d < 16) (hr : r < 16) :
    [BitVec.ofNat 16 (o * 256 + d * 16 + r)] <+: [w, w1] ↔
      (field w 12 4 = 0 ∧ field w 10 2 = 0 ∧ field w 8 2 = o) ∧ field w 4 4 = d ∧ field w 0 4 = r := by
  have hsum : o * 256 + d * 16 + r = (((0 * 2 ^ 2 + 0) * 2 ^ 2 + o) * 2 ^ 4 + d) * 2 ^ 4 + r := by omega
  rw [ofNat_begins (by omega), hsum, field_append_eq 0 4 12 (by omega), field_append_eq 4 4 8 (by omega),
    field_append_eq 8 2 6 (by omega), field_append_eq 10 2 4 (by omega)]
  tauto

theorem movw_begins {d r : Reg} (hd : d.even = true) (hr : r.even = true) :
    encode (.movw d r) <+: [w, w1] ↔
      (field w 12 4 = 0 ∧ field w 10 2 = 0 ∧ field w 8 2 = 1) ∧
        Fin.ofNat 32 (2 * field w 4 4) = d ∧ Fin.ofNat 32 (2 * field w 0 4) = r := by
  rw [evenReg_eq, evenReg_eq, and_iff_right hd, and_iff_right hr]
  exact nibblePair_begins (o := 1) (by decide) (by omega) (by omega)

theorem muls_begins {d r : Reg} (hd : d.upper = true) (hr : r.upper = true) :
    encode (.muls d r) <+: [w, w1] ↔
      (field w 12 4 = 0 ∧ field w 10 2 = 0 ∧ field w 8 2 = 2) ∧
        Fin.ofNat 32 (16 + field w 4 4) = d ∧ Fin.ofNat 32 (16 + field w 0 4) = r := by
  rw [upperReg_eq, upperReg_eq, and_iff_right hd, and_iff_right hr]
  exact nibblePair_begins (o := 2) (by decide) (Nat.mod_lt _ (by decide)) (Nat.mod_lt _ (by decide))

theorem encABS22_begins {o : Nat} {k : BitVec 22} (ho : o < 2) :
    encABS22 o k <+: [w, w1] ↔ field w 9 7 = 0b1001010 ∧ field w 1 3 = 0b110 + o ∧ fieldK22 w w1 = k := by
  have hsum : 0x940C + k.toNat / 2 ^ 17 * 16 + o * 2 + k.toNat / 2 ^ 16 % 2 =
    ((0b1001010 * 2 ^ 5 + k.toNat / 2 ^ 17) * 2 ^ 3 + (0b110 + o)) * 2 ^ 1 + k.toNat / 2 ^ 16 % 2 := by omega
  rw [encABS22, pair_begins, ofNat_begins (by omega), fieldK22_eq, hsum, field_append_eq 0 1 15 (by omega),
    field_append_eq 1 3 12 (by omega), field_append_eq 4 5 7 (by omega),
    bitVecOfNat_eq (n := k.toNat % 2 ^ 16) (by omega), eq_comm (a := k.toNat % 2 ^ 16)]
  tauto

end

end Sys2Proof
end

section
/-! SUPPORT. The decoder on the words of an instruction (30_encoding.md R109 to R113). -/

namespace Sys2Proof

section
variable {w w1 : Word} {p : Profile} {i : Instr}

/-- What the decoder answers for the words of an instruction: its base instruction, on the profiles that have it
(R113). -/
def Instr.decoded (p : Profile) (i : Instr) : Option Instr := if i.onProfile p then some i.base else none

theorem decoded_of_both (h : i.megaOnly = false) : i.decoded p = some i.base := by
  simp [Instr.decoded, Instr.onProfile, h]

theorem decoded_of_mega (h : i.megaOnly = true) : i.decoded p = onMega p i.base := by
  simp [Instr.decoded, Instr.onProfile, onMega, h]

theorem decode?_of_disp_page (p : Profile) (w1 : Word) (hhi : field w 14 2 = 2) (hlo : field w 12 1 = 0) :
    decode? p w w1 = some (decodeDisp w) := by
  have hnibble : field w 12 4 = 8 ∨ field w 12 4 = 10 := by simp only [field] at *; omega
  rcases hnibble with h | h <;> simp [decode?, h]

theorem decode?_of_mul_page (p : Profile) (w1 : Word) (hnibble : field w 12 4 = 9) (hpage : field w 10 2 = 3) :
    decode? p w w1 = onMega p (.mul (fieldD w) (fieldR w)) := by
  have hpages : field w 9 3 = 6 ∨ field w 9 3 = 7 := by simp only [field] at *; omega
  rcases hpages with h | h <;> simp [decode?, decodeNibble9, hnibble, h]

theorem decodeMisc_of_jmp_call (p : Profile) (w1 : Word) {o : Nat} (ho : o < 2) (h : field w 1 3 = 0b110 + o) :
    decodeMisc p w w1 = onMega p (if o = 0 then .jmp (fieldK22 w w1) else .call (fieldK22 w w1)) := by
  have hlow : field w 0 4 = 2 * (6 + o) ∨ field w 0 4 = 2 * (6 + o) + 1 := by simp only [field] at *; omega
  have ho' : o = 0 ∨ o = 1 := by omega
  rcases ho' with rfl | rfl <;> rcases hlow with hl | hl <;> simp [decodeMisc, hl, h]

/-- The decoder reads the base instruction from any two words that begin with the instruction's: a case for each format,
whose fields lead to the instruction's place in the opcode map (R109, R110). -/
theorem decode?_of_encode_begins (p : Profile) (hi : i.wf = true) (h : encode i <+: [w, w1]) :
    decode? p w w1 = i.decoded p := by
  cases i with
  | mov d r | add d r | adc d r | sub d r | sbc d r | and d r | or d r | eor d r | cpse d r | cp d r | cpc d r =>
    obtain ⟨hnibble, hpage, rfl, rfl⟩ := (encRR_begins (by decide)).mp h
    rw [decoded_of_both rfl]
    simp [decode?, decodeNibble0, decodeNibble1, decodeNibble2, hnibble, hpage, Instr.base]
  | lsl d | rol d | tst d | clr d =>
    obtain ⟨hnibble, hpage, rfl, hr⟩ := (encRR_begins (by decide)).mp h
    rw [decoded_of_both rfl]
    simp [decode?, decodeNibble0, decodeNibble1, decodeNibble2, hnibble, hpage, hr, Instr.base]
  | mul d r =>
    obtain ⟨hnibble, hpage, rfl, rfl⟩ := (encRR_begins (by decide)).mp h
    rw [decoded_of_mega rfl, decode?_of_mul_page p w1 hnibble hpage]
    rfl
  | ldi d k | subi d k | sbci d k | andi d k | ori d k | cpi d k | sbr d k | cbr d k | ser d =>
    obtain ⟨hnibble, hd, hk⟩ := (encRI_begins (by decide) hi).mp h
    rw [decoded_of_both rfl]
    simp [decode?, hnibble, hd, hk, Instr.base]
  | ldX d | ldXInc d | ldXDec d | ldYInc d | ldYDec d | ldZInc d | ldZDec d | pop d =>
    obtain ⟨hpage, hlow, rfl⟩ := (encLS_begins (by decide) (by decide)).mp h
    rw [decoded_of_both rfl, decode?_of_load_page p w1 hpage]
    simp [decodeLoad, hlow, Instr.base]
  | lpmZ d | lpmZInc d =>
    obtain ⟨hpage, hlow, rfl⟩ := (encLS_begins (by decide) (by decide)).mp h
    rw [decoded_of_mega rfl, decode?_of_load_page p w1 hpage]
    simp [decodeLoad, hlow, Instr.base]
  | stX d | stXInc d | stXDec d | stYInc d | stYDec d | stZInc d | stZDec d | push d =>
    obtain ⟨hpage, hlow, rfl⟩ := (encLS_begins (by decide) (by decide)).mp h
    rw [decoded_of_both rfl, decode?_of_store_page p w1 hpage]
    simp [decodeStore, hlow, Instr.base]
  | lds d k =>
    obtain ⟨hpage, hlow, rfl, rfl⟩ := (encLS_const_begins (by decide) (by decide)).mp h
    rw [decoded_of_both rfl, decode?_of_load_page p _ hpage]
    simp [decodeLoad, hlow, Instr.base]
  | sts k d =>
    obtain ⟨hpage, hlow, rfl, rfl⟩ := (encLS_const_begins (by decide) (by decide)).mp h
    rw [decoded_of_both rfl, decode?_of_store_page p _ hpage]
    simp [decodeStore, hlow, Instr.base]
  | ldY d | lddY d q | ldZ d | lddZ d q | stY d | stdY q d | stZ d | stdZ q d =>
    obtain ⟨hhi, hlo, hstore, hptr, rfl, hq⟩ := (encLDD_begins (by decide) (by decide)).mp h
    rw [decoded_of_both rfl, decode?_of_disp_page p w1 hhi hlo]
    simp [decodeDisp, hstore, hptr, hq, Instr.base]
  | inPort d a | outPort a d =>
    obtain ⟨hnibble, hstore, rfl, rfl⟩ := (encIO_begins (by decide)).mp h
    rw [decoded_of_both rfl]
    simp [decode?, hnibble, hstore, Instr.base]
  | sbi a b | cbi a b | sbic a b | sbis a b =>
    obtain ⟨hnibble, hpage, hhalf, rfl, rfl⟩ := (encIOB_begins (by decide)).mp h
    rw [decoded_of_both rfl]
    simp [decode?, decodeNibble9, hnibble, hpage, hhalf, Instr.base]
  | adiw d k | sbiw d k =>
    obtain ⟨hnibble, hpage, hhalf, rfl, rfl⟩ := (encIW_begins (by decide) hi).mp h
    rw [decoded_of_both rfl]
    simp [decode?, decodeNibble9, hnibble, hpage, hhalf, Instr.base]
  | com d | neg d | swap d | inc d | asr d | lsr d | ror d | dec d =>
    obtain ⟨hpage, hlow, rfl⟩ := (encR1_begins (by decide)).mp h
    rw [decoded_of_both rfl, decode?_of_misc_page p w1 hpage]
    simp [decodeMisc, hlow, Instr.base]
  | bset s | bclr s =>
    obtain ⟨hpage, hlow, hhalf, hset, rfl⟩ := (encSREG_begins (by decide)).mp h
    rw [decoded_of_both rfl, decode?_of_misc_page p w1 hpage]
    simp [decodeMisc, decodeSystem, hlow, hhalf, hset, Instr.base]
  | jmp k | call k =>
    obtain ⟨hpage, hkind, rfl⟩ := (encABS22_begins (by decide)).mp h
    rw [decoded_of_mega rfl, decode?_of_misc_page p w1 hpage, decodeMisc_of_jmp_call p w1 (by decide) hkind]
    rfl
  | bst d b | bld d b | sbrc d b | sbrs d b =>
    obtain ⟨hnibble, hbit, hkind, hlow, rfl, rfl⟩ := (encRB_begins (by decide)).mp h
    rw [decoded_of_both rfl]
    simp [decode?, decodeNibbleF, hnibble, hbit, hkind, hlow, Instr.base]
  | brbs s k | brbc s k | breq k | brne k | brcs k | brcc k | brsh k | brlo k | brmi k | brpl k | brge k | brlt k
  | brhs k | brhc k | brts k | brtc k | brvs k | brvc k | brie k | brid k =>
    obtain ⟨hnibble, hbit, hkind, hs, rfl⟩ := (encBR_begins (by decide)).mp h
    rw [decoded_of_both rfl]
    simp [decode?, decodeNibbleF, hnibble, hbit, hkind, hs, Instr.base]
  | rjmp k | rcall k =>
    obtain ⟨hnibble, rfl⟩ := (encREL_begins (by decide)).mp h
    rw [decoded_of_both rfl]
    simp [decode?, hnibble, Instr.base]
  | movw d r =>
    obtain ⟨hd, hr⟩ := Bool.and_eq_true_iff.mp hi
    obtain ⟨⟨hnibble, hpage, hkind⟩, rfl, rfl⟩ := (movw_begins hd hr).mp h
    rw [decoded_of_mega rfl]
    simp [decode?, decodeNibble0, hnibble, hpage, hkind, Instr.base]
  | muls d r =>
    obtain ⟨hd, hr⟩ := Bool.and_eq_true_iff.mp hi
    obtain ⟨⟨hnibble, hpage, hkind⟩, rfl, rfl⟩ := (muls_begins hd hr).mp h
    rw [decoded_of_mega rfl]
    simp [decode?, decodeNibble0, hnibble, hpage, hkind, Instr.base]
  | mulsu d r | fmul d r | fmuls d r | fmulsu d r =>
    obtain ⟨hd, hr⟩ := Bool.and_eq_true_iff.mp hi
    obtain ⟨⟨hnibble, hpage, hkind⟩, hhi, hlo, rfl, rfl⟩ := (encMUL3_begins (by decide) (by decide) hd hr).mp h
    rw [decoded_of_mega rfl]
    simp [decode?, decodeNibble0, hnibble, hpage, hkind, hhi, hlo, Instr.base]
  | lpm | nop | sleep | wdr | ijmp | icall | ret | reti | spm | brk | sec | clc | sen | cln | sez | clz | sei | cli
  | ses | cls | sev | clv | setT | clt | seh | clh =>
    obtain rfl := word_begins.mp h
    cases p <;> rfl

end

end Sys2Proof
end

section
/-! SUPPORT. What every answer of the decoder says of the words it was given: the instruction read is well formed, of
the profile and has those words, and a rejected word is in R114's list (30_encoding.md R91, R109 to R114). -/

namespace Sys2Proof

open Machine (isReserved)

section
variable {w w1 : Word} {p : Profile} {i : Instr}

/-! ## The length rule (R91) -/

theorem wordLength_of_other_page (p : Profile) (h : field w 9 7 ∉ [0b1001000, 0b1001001, 0b1001010]) :
    wordLength p w = 1 := by
  simp only [List.mem_cons, List.not_mem_nil, or_false, not_or] at h
  obtain ⟨hload, hstore, hmisc⟩ := h
  simp [wordLength, hload, hstore, hmisc]

theorem wordLength_of_nibble (p : Profile) (h : field w 12 4 ≠ 9) : wordLength p w = 1 := by
  apply wordLength_of_other_page
  simp only [List.mem_cons, List.not_mem_nil, or_false, field] at *
  omega

theorem wordLength_of_load_store_page (p : Profile) (h : field w 9 7 = 0b1001000 ∨ field w 9 7 = 0b1001001) :
    wordLength p w = if field w 0 4 = 0 then 2 else 1 := by
  have hmisc : field w 9 7 ≠ 0b1001010 := by omega
  simp [wordLength, h, hmisc]

theorem wordLength_of_misc_page (p : Profile) (h : field w 9 7 = 0b1001010) :
    wordLength p w = if p = .pmega ∧ field w 2 2 = 3 then 2 else 1 := by
  simp [wordLength, h]

/-! ## A masked word from its fields -/

/-- A mask of `n` ones from bit `lo` on leaves the field there. -/
theorem and_field_mask (w : Word) (lo n : Nat) :
    w &&& BitVec.ofNat 16 ((2 ^ n - 1) * 2 ^ lo) = BitVec.ofNat 16 (field w lo n * 2 ^ lo) := by
  apply BitVec.eq_of_getLsbD_eq
  intro i hi
  simp only [BitVec.getLsbD_and, BitVec.getLsbD_ofNat, field, Nat.testBit_mul_two_pow, Nat.testBit_two_pow_sub_one,
    Nat.testBit_mod_two_pow, Nat.testBit_div_two_pow]
  by_cases h : lo ≤ i
  · simp [h, hi, BitVec.getLsbD, Bool.and_comm]
  · simp [h]

theorem and_eq_of_field {m c : Word} {lo n a : Nat} (h : field w lo n = a)
    (hm : m = BitVec.ofNat 16 ((2 ^ n - 1) * 2 ^ lo)) (hc : BitVec.ofNat 16 (a * 2 ^ lo) = c) : w &&& m = c := by
  rw [hm, and_field_mask, h, hc]

theorem and_eq_of_two_fields {m c : Word} {lo n lo' n' a b : Nat} (h : field w lo n = a) (h' : field w lo' n' = b)
    (hm : m = BitVec.ofNat 16 ((2 ^ n - 1) * 2 ^ lo) ||| BitVec.ofNat 16 ((2 ^ n' - 1) * 2 ^ lo'))
    (hc : BitVec.ofNat 16 (a * 2 ^ lo) ||| BitVec.ofNat 16 (b * 2 ^ lo') = c) : w &&& m = c := by
  rw [hm, BitVec.and_or_distrib_left, and_field_mask, and_field_mask, h, h', hc]

/-! ## What the decoder's answers say of the words -/

/-- The instruction is well formed, of the profile, no second spelling, its words begin what was read, and it has
as many as the length rule says (R91, R113). -/
def Reads (p : Profile) (w w1 : Word) (i : Instr) : Prop :=
  i.wf = true ∧ i.onProfile p = true ∧ i.core = true ∧ encode i <+: [w, w1] ∧ i.words = wordLength p w

/-- An answer of the decoder is right: the instruction read, or none for a word of R114's list. -/
def Answers (p : Profile) (w w1 : Word) : Option Instr → Prop
  | some i => Reads p w w1 i
  | none => isReserved p w = true

theorem answers_some (hmega : i.megaOnly = false) (hcore : i.base = i) (hwf : i.wf = true)
    (hlen : wordLength p w = i.words) (h : encode i <+: [w, w1]) : Answers p w w1 (some i) :=
  ⟨hwf, by simp [Instr.onProfile, hmega], Laws.core_of hcore, h, hlen.symm⟩

theorem answers_onMega (hres : isReserved .p2313 w = true) (hcore : i.base = i) (hwf : i.wf = true)
    (hlen : wordLength .pmega w = i.words) (h : encode i <+: [w, w1]) : Answers p w w1 (onMega p i) := by
  cases p with
  | p2313 => exact hres
  | pmega => exact ⟨hwf, rfl, Laws.core_of hcore, h, hlen.symm⟩

/-! ## R114's patterns from the fields the decoder tests -/

theorem contains_and_of_field_mem {m : Word} {lo n : Nat} {cs : List Word} {as : List Nat} (h : field w lo n ∈ as)
    (hm : m = BitVec.ofNat 16 ((2 ^ n - 1) * 2 ^ lo)) (hcs : as.map (fun a => BitVec.ofNat 16 (a * 2 ^ lo)) = cs) :
    cs.contains (w &&& m) = true := by
  rw [List.contains_iff_mem, hm, and_field_mask, ← hcs]
  exact List.mem_map_of_mem h

theorem isReserved_of_zero_page (p : Profile) (h : field w 8 8 = 0) (hlow : field w 0 8 ≠ 0) :
    isReserved p w = true := by
  have hmask : w &&& 0xFF00 = 0x0000 := and_eq_of_field h rfl rfl
  have hnop : (w != 0x0000) = true := bne_iff_ne.mpr (by rintro rfl; exact hlow rfl)
  simp only [isReserved, hmask, hnop, beq_self_eq_true, Bool.and_self, Bool.true_or]

theorem isReserved_of_load_store_page (p : Profile) (hpage : field w 10 6 = 0b100100)
    (hlow : field w 0 4 ∈ [0x3, 0x6, 0x7, 0x8, 0xB]) : isReserved p w = true := by
  have hmask : w &&& 0xFC00 = 0x9000 := and_eq_of_field hpage rfl rfl
  have hlow' : ([0x3, 0x6, 0x7, 0x8, 0xB] : List Word).contains (w &&& 0x000F) = true :=
    contains_and_of_field_mem hlow rfl rfl
  simp only [isReserved, hmask, hlow', beq_self_eq_true, Bool.and_self, Bool.true_or, Bool.or_true]

theorem isReserved_of_store_page (p : Profile) (hpage : field w 9 7 = 0b1001001)
    (hlow : field w 0 4 ∈ [0x4, 0x5]) : isReserved p w = true := by
  have hmask : w &&& 0xFE00 = 0x9200 := and_eq_of_field hpage rfl rfl
  have hlow' : ([0x4, 0x5] : List Word).contains (w &&& 0x000F) = true := contains_and_of_field_mem hlow rfl rfl
  simp only [isReserved, hmask, hlow', beq_self_eq_true, Bool.and_self, Bool.true_or, Bool.or_true]

theorem isReserved_of_misc_4 (p : Profile) (hpage : field w 9 7 = 0b1001010) (hlow : field w 0 4 = 0x4) :
    isReserved p w = true := by
  have hmask : w &&& 0xFE0F = 0x9404 := and_eq_of_two_fields hpage hlow rfl rfl
  simp only [isReserved, hmask, beq_self_eq_true, Bool.true_or, Bool.or_true]

theorem isReserved_of_misc_B (p : Profile) (hpage : field w 9 7 = 0b1001010) (hlow : field w 0 4 = 0xB) :
    isReserved p w = true := by
  have hmask : w &&& 0xFE0F = 0x940B := and_eq_of_two_fields hpage hlow rfl rfl
  simp only [isReserved, hmask, beq_self_eq_true, Bool.true_or, Bool.or_true]

theorem isReserved_of_misc_9 (p : Profile) (hpage : field w 9 7 = 0b1001010) (hlow : field w 0 4 = 0x9)
    (hijmp : field w 4 5 ≠ 0b00000) (hicall : field w 4 5 ≠ 0b10000) : isReserved p w = true := by
  have hmask : w &&& 0xFE0F = 0x9409 := and_eq_of_two_fields hpage hlow rfl rfl
  have hijmp' : (w != 0x9409) = true := bne_iff_ne.mpr (by rintro rfl; exact hijmp rfl)
  have hicall' : (w != 0x9509) = true := bne_iff_ne.mpr (by rintro rfl; exact hicall rfl)
  simp only [isReserved, hmask, hijmp', hicall', beq_self_eq_true, Bool.and_self, Bool.true_or, Bool.or_true]

theorem isReserved_of_system_page (p : Profile) (hpage : field w 8 8 = 0x95) (hlow : field w 0 4 = 0x8)
    (hmid : field w 4 4 ∈ [0x2, 0x3, 0x4, 0x5, 0x6, 0x7, 0xB, 0xD, 0xF]) : isReserved p w = true := by
  have hmask : w &&& 0xFF0F = 0x9508 := and_eq_of_two_fields hpage hlow rfl rfl
  have hmid' : ([0x20, 0x30, 0x40, 0x50, 0x60, 0x70, 0xB0, 0xD0, 0xF0] : List Word).contains (w &&& 0x00F0) = true :=
    contains_and_of_field_mem hmid rfl rfl
  simp only [isReserved, hmask, hmid', beq_self_eq_true, Bool.and_self, Bool.true_or, Bool.or_true]

theorem isReserved_of_bit_page (p : Profile) (hpage : field w 11 5 = 0b11111) (hlow : field w 3 1 = 1) :
    isReserved p w = true := by
  have hmask : w &&& 0xF808 = 0xF808 := and_eq_of_two_fields hpage hlow rfl rfl
  simp only [isReserved, hmask, beq_self_eq_true, Bool.true_or, Bool.or_true]

theorem isReserved_p2313_of_multiply (hpage : field w 10 6 = 0) (hkind : field w 8 2 ≠ 0) :
    isReserved .p2313 w = true := by
  have hkinds : field w 8 8 = 1 ∨ field w 8 8 = 2 ∨ field w 8 8 = 3 := by simp only [field] at *; omega
  rcases hkinds with h | h | h
  · have hmask : w &&& 0xFF00 = 0x0100 := and_eq_of_field h rfl rfl
    simp only [isReserved, hmask, beq_self_eq_true, Bool.and_self, Bool.true_or, Bool.or_true]
  · have hmask : w &&& 0xFF00 = 0x0200 := and_eq_of_field h rfl rfl
    simp only [isReserved, hmask, beq_self_eq_true, Bool.and_self, Bool.true_or, Bool.or_true]
  · have hmask : w &&& 0xFF00 = 0x0300 := and_eq_of_field h rfl rfl
    simp only [isReserved, hmask, beq_self_eq_true, Bool.and_self, Bool.true_or, Bool.or_true]

theorem isReserved_p2313_of_jmp_call (hpage : field w 9 7 = 0b1001010) (hlow : field w 2 2 = 3) :
    isReserved .p2313 w = true := by
  have hmask : w &&& 0xFE0C = 0x940C := and_eq_of_two_fields hpage hlow rfl rfl
  simp only [isReserved, hmask, beq_self_eq_true, Bool.and_self, Bool.true_or, Bool.or_true]

theorem isReserved_p2313_of_lpm (hpage : field w 9 7 = 0b1001000) (hlow : field w 1 3 = 2) :
    isReserved .p2313 w = true := by
  have hmask : w &&& 0xFE0E = 0x9004 := and_eq_of_two_fields hpage hlow rfl rfl
  simp only [isReserved, hmask, beq_self_eq_true, Bool.and_self, Bool.true_or, Bool.or_true]

theorem isReserved_p2313_of_mul (hpage : field w 10 6 = 0b100111) : isReserved .p2313 w = true := by
  have hmask : w &&& 0xFC00 = 0x9C00 := and_eq_of_field hpage rfl rfl
  simp only [isReserved, hmask, beq_self_eq_true, Bool.and_self, Bool.true_or, Bool.or_true]

/-- The words `1001 0101 xxxx 1000` (R110). -/
theorem eq_system_word {x : Nat} (hpage : field w 9 7 = 0b1001010) (hhalf : field w 8 1 = 1) (hmid : field w 4 4 = x)
    (hlow : field w 0 4 = 8) : w = BitVec.ofNat 16 (0x9508 + x * 16) := by
  refine BitVec.eq_of_toNat_eq ?_
  simp only [field, BitVec.toNat_ofNat] at *
  omega

/-- The decoder is a chain of tests; each is taken alone. -/
theorem answers_ite {c : Prop} [Decidable c] {x y : Option Instr} (hx : c → Answers p w w1 x)
    (hy : ¬ c → Answers p w w1 y) : Answers p w w1 (if c then x else y) := by
  split
  · exact hx ‹_›
  · exact hy ‹_›

/-! ## The decoder, page by page (R109, R110) -/

theorem decodeNibble0_answers (p : Profile) (w1 : Word) (h : field w 12 4 = 0) :
    Answers p w w1 (decodeNibble0 p w) := by
  have hlen (p : Profile) : wordLength p w = 1 := wordLength_of_nibble p (by rw [h]; decide)
  unfold decodeNibble0
  dsimp only
  refine answers_ite (fun hcpc => ?_) fun hcpc => answers_ite (fun hsbc => ?_) fun hsbc =>
    answers_ite (fun hadd => ?_) fun hadd => ?_
  · exact answers_some rfl rfl rfl (hlen p) ((encRR_begins (by decide)).mpr ⟨h, hcpc, rfl, rfl⟩)
  · exact answers_some rfl rfl rfl (hlen p) ((encRR_begins (by decide)).mpr ⟨h, hsbc, rfl, rfl⟩)
  · exact answers_some rfl rfl rfl (hlen p) ((encRR_begins (by decide)).mpr ⟨h, hadd, rfl, rfl⟩)
  have hlt := field_lt w 10 2
  have hpage : field w 10 2 = 0 := by omega
  have hbase : field w 10 6 = 0 := (field_append_eq 10 2 4 (by decide)).mpr ⟨h, hpage⟩
  refine answers_ite (fun hkind => answers_ite (fun hnop => ?_) fun hnop => ?_) fun hkind => ?_
  · have hzero : w = 0x0000 := by
      have htoNat : w.toNat = 0 := by simp only [field] at *; omega
      exact BitVec.eq_of_toNat_eq htoNat
    exact answers_some rfl rfl rfl (hlen p) (word_begins.mpr hzero)
  · exact isReserved_of_zero_page p ((field_append_eq 8 2 6 (by decide)).mpr ⟨hbase, hkind⟩) hnop
  have hres := isReserved_p2313_of_multiply hbase hkind
  refine answers_ite (fun hmovw => ?_) fun hmovw => answers_ite (fun hmuls => ?_) fun hmuls => ?_
  · have hd := evenReg_even w 4
    have hr := evenReg_even w 0
    exact answers_onMega hres rfl (Bool.and_eq_true_iff.mpr ⟨hd, hr⟩) (hlen _)
      ((movw_begins hd hr).mpr ⟨⟨h, hpage, hmovw⟩, rfl, rfl⟩)
  · have hd := upperReg_upper w 4
    have hr := upperReg_upper w 0
    exact answers_onMega hres rfl (Bool.and_eq_true_iff.mpr ⟨hd, hr⟩) (hlen _)
      ((muls_begins hd hr).mpr ⟨⟨h, hpage, hmuls⟩, rfl, rfl⟩)
  have hlt' := field_lt w 8 2
  have hlt7 := field_lt w 7 1
  have hlt3 := field_lt w 3 1
  have hd := lowUpperReg_lowUpper w 4
  have hr := lowUpperReg_lowUpper w 0
  refine answers_ite (fun hhi => answers_ite (fun hlo => ?_) fun hlo => ?_) fun hhi =>
    answers_ite (fun hlo => ?_) fun hlo => ?_
  all_goals
    exact answers_onMega hres rfl (Bool.and_eq_true_iff.mpr ⟨hd, hr⟩) (hlen _)
      ((encMUL3_begins (by decide) (by decide) hd hr).mpr ⟨⟨h, hpage, by omega⟩, by omega, by omega, rfl, rfl⟩)

theorem decodeNibble1_answers (p : Profile) (w1 : Word) (h : field w 12 4 = 1) :
    Answers p w w1 (some (decodeNibble1 w)) := by
  have hlen : wordLength p w = 1 := wordLength_of_nibble p (by rw [h]; decide)
  have hlt := field_lt w 10 2
  unfold decodeNibble1
  split_ifs <;>
    exact answers_some rfl rfl rfl hlen ((encRR_begins (by decide)).mpr ⟨h, by omega, rfl, rfl⟩)

theorem decodeNibble2_answers (p : Profile) (w1 : Word) (h : field w 12 4 = 2) :
    Answers p w w1 (some (decodeNibble2 w)) := by
  have hlen : wordLength p w = 1 := wordLength_of_nibble p (by rw [h]; decide)
  have hlt := field_lt w 10 2
  unfold decodeNibble2
  split_ifs <;>
    exact answers_some rfl rfl rfl hlen ((encRR_begins (by decide)).mpr ⟨h, by omega, rfl, rfl⟩)

theorem decodeDisp_answers (p : Profile) (w1 : Word) (h : field w 14 2 = 2) (h' : field w 12 1 = 0) :
    Answers p w w1 (some (decodeDisp w)) := by
  have hlen : wordLength p w = 1 := wordLength_of_nibble p (by simp only [field] at *; omega)
  have hlt := field_lt w 9 1
  have hlt' := field_lt w 3 1
  unfold decodeDisp
  split_ifs <;>
    exact answers_some rfl rfl rfl hlen
      ((encLDD_begins (by decide) (by decide)).mpr ⟨h, h', by omega, by omega, rfl, rfl⟩)

theorem decodeLoad_answers (p : Profile) (w1 : Word) (h : field w 9 7 = 0b1001000) :
    Answers p w w1 (decodeLoad p w w1) := by
  have hlt := field_lt w 0 4
  have hlt' := field_lt w 0 1
  have hlink : field w 0 4 = field w 1 3 * 2 ^ 1 + field w 0 1 := field_append w 0 1 3
  have hlen (p : Profile) := wordLength_of_load_store_page p (.inl h)
  have hwords {m : Nat} (hlow : field w 0 4 = m) : [encLS 0 (fieldD w) m] <+: [w, w1] :=
    (encLS_begins (by decide) (hlow ▸ hlt)).mpr ⟨h, hlow, rfl⟩
  unfold decodeLoad
  refine answers_ite (fun h0 => ?_) fun h0 => ?_
  · exact answers_some rfl rfl rfl ((hlen p).trans (if_pos h0))
      ((encLS_const_begins (by decide) (by decide)).mpr ⟨h, h0, rfl, rfl⟩)
  have hone (p : Profile) : wordLength p w = 1 := (hlen p).trans (if_neg h0)
  iterate 2 refine answers_ite (fun hm => answers_some rfl rfl rfl (hone p) (hwords hm)) fun _ => ?_
  iterate 2
    refine answers_ite (fun hm => ?_) fun _ => ?_
    · have hlpm : field w 1 3 = 2 := by omega
      exact answers_onMega (isReserved_p2313_of_lpm h hlpm) rfl rfl (hone _) (hwords hm)
  iterate 6 refine answers_ite (fun hm => answers_some rfl rfl rfl (hone p) (hwords hm)) fun _ => ?_
  have hlow : field w 0 4 ∈ [0x3, 0x6, 0x7, 0x8, 0xB] := by
    simp only [List.mem_cons, List.not_mem_nil, or_false]
    omega
  exact isReserved_of_load_store_page p (by simp only [field] at h ⊢; omega) hlow

theorem decodeStore_answers (p : Profile) (w1 : Word) (h : field w 9 7 = 0b1001001) :
    Answers p w w1 (decodeStore w w1) := by
  have hlt := field_lt w 0 4
  have hlen := wordLength_of_load_store_page p (.inr h)
  have hwords {m : Nat} (hlow : field w 0 4 = m) : [encLS 1 (fieldD w) m] <+: [w, w1] :=
    (encLS_begins (by decide) (hlow ▸ hlt)).mpr ⟨h, hlow, rfl⟩
  unfold decodeStore
  refine answers_ite (fun h0 => ?_) fun h0 => ?_
  · exact answers_some rfl rfl rfl (hlen.trans (if_pos h0))
      ((encLS_const_begins (by decide) (by decide)).mpr ⟨h, h0, rfl, rfl⟩)
  have hone : wordLength p w = 1 := hlen.trans (if_neg h0)
  iterate 8 refine answers_ite (fun hm => answers_some rfl rfl rfl hone (hwords hm)) fun _ => ?_
  have hlow : field w 0 4 ∈ [0x4, 0x5] ∨ field w 0 4 ∈ [0x3, 0x6, 0x7, 0x8, 0xB] := by
    simp only [List.mem_cons, List.not_mem_nil, or_false]
    omega
  rcases hlow with hlow | hlow
  · exact isReserved_of_store_page p h hlow
  · exact isReserved_of_load_store_page p (by simp only [field] at h ⊢; omega) hlow

theorem decodeSystem_answers (p : Profile) (w1 : Word) (h : field w 9 7 = 0b1001010) (hlow : field w 0 4 = 8) :
    Answers p w w1 (decodeSystem p w) := by
  have hlink : field w 0 4 = field w 2 2 * 2 ^ 2 + field w 0 2 := field_append w 0 2 2
  have hlt2 := field_lt w 0 2
  have hlen (p : Profile) : wordLength p w = 1 := (wordLength_of_misc_page p h).trans (if_neg (by omega))
  unfold decodeSystem
  refine answers_ite (fun hhalf => answers_ite (fun hset => ?_) fun hset => ?_) fun hhalf => ?_
  · exact answers_some rfl rfl rfl (hlen p) ((encSREG_begins (by decide)).mpr ⟨h, hlow, hhalf, hset, rfl⟩)
  · have hclear : field w 7 1 = 1 := by have := field_lt w 7 1; omega
    exact answers_some rfl rfl rfl (hlen p) ((encSREG_begins (by decide)).mpr ⟨h, hlow, hhalf, hclear, rfl⟩)
  have hhalf' : field w 8 1 = 1 := by have := field_lt w 8 1; omega
  iterate 3
    refine answers_ite (fun hm => answers_some rfl rfl rfl (hlen p) (word_begins.mpr ?_)) fun _ => ?_
    · exact eq_system_word h hhalf' hm hlow
  refine answers_ite (fun hm => ?_) fun h9 => ?_
  · obtain rfl : w = 0x9598 := eq_system_word h hhalf' hm hlow
    exact answers_onMega rfl rfl rfl rfl (word_begins.mpr rfl)
  iterate 2
    refine answers_ite (fun hm => answers_some rfl rfl rfl (hlen p) (word_begins.mpr ?_)) fun _ => ?_
    · exact eq_system_word h hhalf' hm hlow
  refine answers_ite (fun hm => ?_) fun hE => ?_
  · obtain rfl : w = 0x95E8 := eq_system_word h hhalf' hm hlow
    exact answers_onMega rfl rfl rfl rfl (word_begins.mpr rfl)
  have hlt := field_lt w 4 4
  refine isReserved_of_system_page p ((field_append_eq 8 1 7 (by decide)).mpr ⟨h, hhalf'⟩) hlow ?_
  simp only [List.mem_cons, List.not_mem_nil, or_false]
  omega

theorem decodeMisc_answers (p : Profile) (w1 : Word) (h : field w 9 7 = 0b1001010) :
    Answers p w w1 (decodeMisc p w w1) := by
  have hlt := field_lt w 0 4
  have hlt' := field_lt w 0 1
  have hlt2 := field_lt w 0 2
  have hpair : field w 0 4 = field w 2 2 * 2 ^ 2 + field w 0 2 := field_append w 0 2 2
  have hlink : field w 0 4 = field w 1 3 * 2 ^ 1 + field w 0 1 := field_append w 0 1 3
  have hlen (p : Profile) := wordLength_of_misc_page p h
  have hone (p : Profile) (hlow : field w 0 4 < 0xC) : wordLength p w = 1 := (hlen p).trans (if_neg (by omega))
  have hwords {m : Nat} (hlow : field w 0 4 = m) : encR1 (fieldD w) m <+: [w, w1] :=
    (encR1_begins (hlow ▸ hlt)).mpr ⟨h, hlow, rfl⟩
  unfold decodeMisc
  iterate 7 refine answers_ite (fun hm => answers_some rfl rfl rfl (hone p (by omega)) (hwords hm)) fun _ => ?_
  refine answers_ite (fun hm => decodeSystem_answers p w1 h hm) fun h8 => ?_
  refine answers_ite (fun hm => answers_ite (fun hijmp => ?_) fun hijmp =>
    answers_ite (fun hicall => ?_) fun hicall => ?_) fun h9 => ?_
  · exact answers_some rfl rfl rfl (hone p (by omega)) (word_begins.mpr (word_eq_of_fields h hijmp hm))
  · exact answers_some rfl rfl rfl (hone p (by omega)) (word_begins.mpr (word_eq_of_fields h hicall hm))
  · exact isReserved_of_misc_9 p h hm hijmp hicall
  refine answers_ite (fun hm => answers_some rfl rfl rfl (hone p (by omega)) (hwords hm)) fun hA => ?_
  refine answers_ite (fun hjmp => ?_) fun hjmp => answers_ite (fun hcall => ?_) fun hcall => ?_
  · exact answers_onMega (isReserved_p2313_of_jmp_call h (by omega)) rfl rfl
      ((hlen _).trans (if_pos ⟨rfl, by omega⟩)) ((encABS22_begins (by decide)).mpr ⟨h, hjmp, rfl⟩)
  · exact answers_onMega (isReserved_p2313_of_jmp_call h (by omega)) rfl rfl
      ((hlen _).trans (if_pos ⟨rfl, by omega⟩)) ((encABS22_begins (by decide)).mpr ⟨h, hcall, rfl⟩)
  have hlow : field w 0 4 = 4 ∨ field w 0 4 = 0xB := by omega
  exact hlow.elim (isReserved_of_misc_4 p h) (isReserved_of_misc_B p h)

theorem decodeNibble9_answers (p : Profile) (w1 : Word) (h : field w 12 4 = 9) :
    Answers p w w1 (decodeNibble9 p w w1) := by
  have hlt := field_lt w 9 3
  have hlt' := field_lt w 8 1
  have hpage : field w 9 7 = field w 12 4 * 2 ^ 3 + field w 9 3 := field_append w 9 3 4
  unfold decodeNibble9
  refine answers_ite (fun hm => decodeLoad_answers p w1 (by omega)) fun h0 => ?_
  refine answers_ite (fun hm => decodeStore_answers p w1 (by omega)) fun h1 => ?_
  refine answers_ite (fun hm => decodeMisc_answers p w1 (by omega)) fun h2 => ?_
  have hlen (p : Profile) : wordLength p w = 1 := wordLength_of_other_page p (by
    simp only [List.mem_cons, List.not_mem_nil, or_false]
    omega)
  have hd := fieldPair_wordPair w
  refine answers_ite (fun hm => answers_ite (fun ho => ?_) fun ho => ?_) fun h3 => ?_
  · exact answers_some rfl rfl hd (hlen p) ((encIW_begins (by decide) hd).mpr ⟨h, hm, ho, rfl, rfl⟩)
  · exact answers_some rfl rfl hd (hlen p) ((encIW_begins (by decide) hd).mpr ⟨h, hm, by omega, rfl, rfl⟩)
  refine answers_ite (fun hm => answers_ite (fun ho => ?_) fun ho => ?_) fun h4 => ?_
  · exact answers_some rfl rfl rfl (hlen p) ((encIOB_begins (by decide)).mpr ⟨h, hm, ho, rfl, rfl⟩)
  · exact answers_some rfl rfl rfl (hlen p) ((encIOB_begins (by decide)).mpr ⟨h, hm, by omega, rfl, rfl⟩)
  refine answers_ite (fun hm => answers_ite (fun ho => ?_) fun ho => ?_) fun h5 => ?_
  · exact answers_some rfl rfl rfl (hlen p) ((encIOB_begins (by decide)).mpr ⟨h, hm, ho, rfl, rfl⟩)
  · exact answers_some rfl rfl rfl (hlen p) ((encIOB_begins (by decide)).mpr ⟨h, hm, by omega, rfl, rfl⟩)
  have hmul : field w 10 2 = 3 := by simp only [field] at *; omega
  have hpages : field w 10 6 = 0b100111 := (field_append_eq 10 2 4 (by decide)).mpr ⟨h, hmul⟩
  exact answers_onMega (isReserved_p2313_of_mul hpages) rfl rfl (hlen _)
    ((encRR_begins (by decide)).mpr ⟨h, hmul, rfl, rfl⟩)

theorem decodeNibbleF_answers (p : Profile) (w1 : Word) (h : field w 12 4 = 0xF) :
    Answers p w w1 (decodeNibbleF w) := by
  have hlen : wordLength p w = 1 := wordLength_of_nibble p (by rw [h]; decide)
  have hlt10 := field_lt w 10 1
  have hlt9 := field_lt w 9 2
  have hlt11 := field_lt w 11 1
  have hlt3 := field_lt w 3 1
  unfold decodeNibbleF
  refine answers_ite (fun hbit => answers_ite (fun ho => ?_) fun ho => ?_) fun hbit =>
    answers_ite (fun hlow => ?_) fun hlow => ?_
  · exact answers_some rfl rfl rfl hlen ((encBR_begins (by decide)).mpr ⟨h, hbit, ho, rfl, rfl⟩)
  · exact answers_some rfl rfl rfl hlen ((encBR_begins (by decide)).mpr ⟨h, hbit, by omega, rfl, rfl⟩)
  · refine answers_ite (fun ho => ?_) fun h0 => answers_ite (fun ho => ?_) fun h1 =>
      answers_ite (fun ho => ?_) fun h2 => ?_
    all_goals
      exact answers_some rfl rfl rfl hlen ((encRB_begins (by decide)).mpr ⟨h, by omega, by omega, hlow, rfl, rfl⟩)
  · have hbit' : field w 11 1 = 1 := by omega
    exact isReserved_of_bit_page p ((field_append_eq 11 1 4 (by decide)).mpr ⟨h, hbit'⟩) (by omega)

theorem decode?_answers (p : Profile) (w w1 : Word) : Answers p w w1 (decode? p w w1) := by
  have hlt := field_lt w 12 4
  have hlt' := field_lt w 11 1
  have hlen (h : field w 12 4 ≠ 9) : wordLength p w = 1 := wordLength_of_nibble p h
  have hd := fieldDUpper_upper w
  unfold decode?
  refine answers_ite (fun h => decodeNibble0_answers p w1 h) fun h0 => ?_
  refine answers_ite (fun h => decodeNibble1_answers p w1 h) fun h1 => ?_
  refine answers_ite (fun h => decodeNibble2_answers p w1 h) fun h2 => ?_
  refine answers_ite (fun h => ?_) fun h3 => answers_ite (fun h => ?_) fun h4 => answers_ite (fun h => ?_) fun h5 =>
    answers_ite (fun h => ?_) fun h6 => answers_ite (fun h => ?_) fun h7 => ?_
  iterate 5
    exact answers_some rfl rfl hd (hlen (by omega)) ((encRI_begins (by decide) hd).mpr ⟨h, rfl, rfl⟩)
  refine answers_ite (fun h => decodeNibble9_answers p w1 h) fun h9 => ?_
  refine answers_ite (fun h => answers_ite (fun ho => ?_) fun ho => ?_) fun hB => ?_
  · exact answers_some rfl rfl rfl (hlen (by omega)) ((encIO_begins (by decide)).mpr ⟨h, ho, rfl, rfl⟩)
  · exact answers_some rfl rfl rfl (hlen (by omega)) ((encIO_begins (by decide)).mpr ⟨h, by omega, rfl, rfl⟩)
  refine answers_ite (fun h => ?_) fun hC => answers_ite (fun h => ?_) fun hD => answers_ite (fun h => ?_) fun hE => ?_
  · exact answers_some rfl rfl rfl (hlen (by omega)) ((encREL_begins (by decide)).mpr ⟨h, rfl⟩)
  · exact answers_some rfl rfl rfl (hlen (by omega)) ((encREL_begins (by decide)).mpr ⟨h, rfl⟩)
  · exact answers_some rfl rfl hd (hlen (by omega)) ((encRI_begins (by decide) hd).mpr ⟨h, rfl, rfl⟩)
  refine answers_ite (fun h => decodeNibbleF_answers p w1 h) fun hF => ?_
  exact decodeDisp_answers p w1 (by simp only [field] at *; omega) (by simp only [field] at *; omega)

end

end Sys2Proof
end

section
/-! The statements about the decoder and the encoder: the two round trips, the reserved words, the printed words
(30_encoding.md R91 to R114). -/

namespace Sys2Proof

open Machine (isReserved)

section
variable {w w1 : Word} {p : Profile} {i : Instr}

theorem reads_of_decode? (h : decode? p w w1 = some i) : Reads p w w1 i := by
  have hanswer := decode?_answers p w w1
  rwa [h] at hanswer

theorem isReserved_of_decode?_none (h : decode? p w w1 = none) : isReserved p w = true := by
  have hanswer := decode?_answers p w w1
  rwa [h] at hanswer

/-- Every instruction's words are those of its base instruction (R112), as many as R91 says. -/
theorem baseForm (i : Instr) : Laws.BaseForm.Statement i := by
  cases i <;> exact fun h => ⟨h, Laws.core_of rfl, rfl, rfl, rfl⟩

theorem words_eq_one_or_two (i : Instr) : i.words = 1 ∨ i.words = 2 := by
  cases i <;> simp [Instr.words]

theorem wordLength_p2313_of_pmega (h : wordLength .pmega w = 1) : wordLength .p2313 w = 1 := by
  by_cases hls : (field w 9 7 = 0b1001000 ∨ field w 9 7 = 0b1001001) ∧ field w 0 4 = 0
  · simp [wordLength, hls] at h
  · simp [wordLength, hls]

theorem encode_of_reads (h : Reads p w w1 i) : encode i = if wordLength p w = 2 then [w, w1] else [w] := by
  obtain ⟨hwf, -, -, hbegins, hwords⟩ := h
  obtain ⟨-, -, -, -, hlength⟩ := baseForm i hwf
  rcases Machine.wordLength_eq_one_or_two p w with hlen | hlen
  · obtain ⟨v, hv⟩ := List.length_eq_one_iff.mp (hlength.trans (hwords.trans hlen))
    rw [hv] at hbegins ⊢
    obtain rfl := word_begins.mp hbegins
    simp [hlen]
  · rw [if_pos hlen]
    exact hbegins.eq_of_length (hlength.trans (hwords.trans hlen))

/-- Settles O2, by what every answer of the decoder says of the words it was given. -/
theorem encodeDecode : Obligations.EncodeDecode := by
  intro p w w1 i h
  have hreads := reads_of_decode? (decode_ok.mp h)
  have ⟨hwf, hprofile, hcore, _, _⟩ := hreads
  exact ⟨hwf, hprofile, hcore, encode_of_reads hreads⟩

/-- Settles O4: what the decoder rejects is in R114's list by what its answers say of the words, and every pattern of
the list is rejected. -/
theorem reservedWords : Obligations.ReservedWords := fun p _ w1 =>
  ⟨fun h => isReserved_of_decode?_none (decode_error.mp h).1, decode_error_of_isReserved p w1⟩

theorem decode_of_encode_begins (hwf : i.wf = true) (h : encode i <+: [w, w1]) :
    if i.onProfile p then decode p w w1 = .ok i.base else decode p w w1 = .error (.reserved w) := by
  have hdecode := decode?_of_encode_begins p hwf h
  unfold Instr.decoded at hdecode
  split_ifs at hdecode ⊢
  · exact decode_ok.mpr hdecode
  · exact decode_error.mpr ⟨hdecode, rfl⟩

/-- The length rule tells the length from the first word, on a profile that has the instruction (R91). -/
theorem wordLength_of_encode_begins (hwf : i.wf = true) (hprofile : i.onProfile p = true) (h : encode i <+: [w, w1]) :
    wordLength p w = (encode i).length := by
  have hdecode := decode?_of_encode_begins p hwf h
  rw [Instr.decoded, if_pos hprofile] at hdecode
  obtain ⟨hwf', -, -, -, hwords⟩ := reads_of_decode? hdecode
  obtain ⟨-, -, -, hsame, -⟩ := baseForm i hwf
  obtain ⟨-, -, -, -, hlength⟩ := baseForm i.base hwf'
  rw [← hwords, ← hlength, hsame]

/-- Settles O1: the decoder reads an instruction's words back format by format, and what it answers has the length the
first word tells, on either profile where it has one word. -/
theorem decodeEncode : Obligations.DecodeEncode := by
  intro p i hwf
  obtain ⟨-, -, -, -, hlength⟩ := baseForm i hwf
  split
  next w hw =>
    have hbegins (w1 : Word) : encode i <+: [w, w1] := by simp [hw]
    refine ⟨?_, fun w1 => decode_of_encode_begins hwf (hbegins w1)⟩
    have hmega : wordLength .pmega w = 1 := by
      rw [wordLength_of_encode_begins hwf rfl (hbegins 0), hw]
      rfl
    cases p with
    | p2313 => exact wordLength_p2313_of_pmega hmega
    | pmega => exact hmega
  next w w1 hw =>
    have hbegins : encode i <+: [w, w1] := by simp [hw]
    have hdecode := decode_of_encode_begins (p := p) hwf hbegins
    split_ifs at hdecode ⊢ with hprofile
    · refine ⟨?_, hdecode⟩
      rw [wordLength_of_encode_begins hwf hprofile hbegins, hw]
      rfl
    · exact hdecode
  next hone htwo =>
    rcases words_eq_one_or_two i with h | h
    · obtain ⟨w, hw⟩ := List.length_eq_one_iff.mp (hlength.trans h)
      exact hone w hw
    · obtain ⟨w, w1, hw⟩ := List.length_eq_two.mp (hlength.trans h)
      exact htwo w w1 hw

/-- LDS and STS, the words of length 2 on P2313 (R91). -/
theorem wordLength_p2313_eq_two (w : Word) :
    wordLength .p2313 w = 2 ↔ w &&& 0xFE0F = 0x9000 ∨ w &&& 0xFE0F = 0x9200 := by
  have hlen : wordLength .p2313 w = 2 ↔
      (field w 9 7 = 0b1001000 ∨ field w 9 7 = 0b1001001) ∧ field w 0 4 = 0 := by
    simp [wordLength]
  rw [hlen]
  constructor
  · rintro ⟨h | h, hlow⟩
    · exact .inl (and_eq_of_two_fields h hlow rfl rfl)
    · exact .inr (and_eq_of_two_fields h hlow rfl rfl)
  · rintro (h | h)
    · exact ⟨.inl (field_of_and_eq h rfl), field_of_and_eq h rfl⟩
    · exact ⟨.inr (field_of_and_eq h rfl), field_of_and_eq h rfl⟩

/-- Settles O3: the length rule by its two fields, the printed words by running the decoder on each. -/
theorem decodedExampleWords : Obligations.DecodedExampleWords :=
  ⟨wordLength_p2313_eq_two, rfl, rfl, rfl, rfl, rfl, rfl, rfl, rfl, rfl, rfl, rfl, rfl, rfl⟩

end

end Sys2Proof
end

section
/-! The meanings of the second spellings (30_encoding.md R112, R113), and the faults of a fetch (30_encoding.md R116;
20_memory.md R66). -/

namespace Sys2Proof.Machine

/-! ## Second spellings -/

theorem loadIndirect_plain (s : State) (p : Ptr) (rd : Reg) :
    s.loadIndirect p .plain rd = s.loadFrom (s.dispAddr p 0) rd 1 := by
  simp [State.loadIndirect, State.loadFrom, State.effAddr, State.dispAddr, PtrMode.modifies]

theorem storeIndirect_plain (s : State) (p : Ptr) (rr : Reg) :
    s.storeIndirect p .plain rr = s.storeTo (s.dispAddr p 0) rr 1 := by
  simp [State.storeIndirect, State.storeTo, State.effAddr, State.dispAddr, PtrMode.modifies]

theorem setReg_reg_eq_self (s : State) (i : Reg) : s.setReg i (s.reg i) = s := by
  simp [State.setReg, State.reg]

theorem not_eq_ff_sub (k : Byte) : ~~~k = 0xFF - k := (BitVec.allOnes_sub_eq_not k).symm

/-- The carries of `v + v` are bits 3 and 7 of `v`, so LSL and ROL leave the flags of an addition (R174, R176). -/
theorem shiftLeftFlags_eq_addFlags (sreg v r : Byte) : shiftLeftFlags sreg v r = addFlags sreg v v r := by
  apply sreg_ext
  intro f
  rw [flagOf_shiftLeftFlags, flagOf_shiftFlags, flagOf_addFlags]
  have hcarry : ∀ a b : Bool, (a || a && !b || !b && a) = a := by decide
  have hoverflow : ∀ a b : Bool, (a && !b || !a && b) = (b ^^ a) := by decide
  cases f <;> simp [hcarry, hoverflow]

theorem clrFlags_eq_logicFlags (sreg : Byte) : clrFlags sreg = logicFlags sreg 0 := by
  apply sreg_ext
  intro f
  rw [flagOf_clrFlags, flagOf_logicFlags]
  cases f <;> rfl

theorem shiftLeft_one_eq_add (v : Byte) : v <<< 1 = v + v := by
  apply BitVec.eq_of_toNat_eq
  rw [BitVec.toNat_shiftLeft, BitVec.toNat_add, Nat.shiftLeft_eq]
  omega

/-- A bit shifted in from the right is added. -/
theorem setByteBit_shiftLeft_one (v : Byte) (c : Bool) : setByteBit (v <<< 1) 0 c = v + v + (if c then 1 else 0) := by
  rw [← shiftLeft_one_eq_add]
  cases c with
  | true => exact (BitVec.shiftLeft_add_eq_shiftLeft_or (x := 1) (y := v)).symm
  | false =>
    apply byte_ext
    intro n
    rw [byteBit_setByteBit]
    split
    next h => subst h; simp [byteBit]
    next => simp

theorem exec_lsl (rd : Reg) (s : State) : exec (.lsl rd) s = exec (.add rd rd) s := by
  have hshift : s.reg rd <<< 1 = s.reg rd + s.reg rd + 0 :=
    (shiftLeft_one_eq_add _).trans (BitVec.add_zero _).symm
  simp only [exec, execLsl, execAdd, State.addWith, State.bitResult, State.writeResult, shiftLeftFlags_eq_addFlags,
    hshift]

theorem exec_rol (rd : Reg) (s : State) : exec (.rol rd) s = exec (.adc rd rd) s := by
  simp only [exec, execRol, execAdc, State.addWith, State.bitResult, State.writeResult, shiftLeftFlags_eq_addFlags,
    carryByte, setByteBit_shiftLeft_one]

theorem exec_tst (rd : Reg) (s : State) : exec (.tst rd) s = exec (.and rd rd) s := by
  simp only [exec, execTst, execAnd, State.logicResult, State.writeResult, BitVec.and_self, setReg_reg_eq_self]

theorem exec_clr (rd : Reg) (s : State) : exec (.clr rd) s = exec (.eor rd rd) s := by
  simp only [exec, execClr, execEor, State.logicResult, clrFlags_eq_logicFlags, BitVec.xor_self]
  rfl

theorem exec_cbr (rd : Reg) (k : Byte) (s : State) : exec (.cbr rd k) s = exec (.andi rd (0xFF - k)) s := by
  simp only [exec, execCbr, execAndi, not_eq_ff_sub]
  rfl

/-- Settles O5: most second spellings have their base instruction's meaning word for word; the loads and stores without
a displacement, the shifts to the left, TST, CLR and CBR by what their results are. -/
theorem aliasesActAsTheirBase : Obligations.AliasesActAsTheirBase := by
  intro i s
  cases i with
  | ldY rd | ldZ rd => exact congrArg outcome (loadIndirect_plain s _ rd)
  | stY rr | stZ rr => exact congrArg outcome (storeIndirect_plain s _ rr)
  | cbr rd k => exact exec_cbr rd k s
  | lsl rd => exact exec_lsl rd s
  | rol rd => exact exec_rol rd s
  | tst rd => exact exec_tst rd s
  | clr rd => exact exec_clr rd s
  | _ => rfl

/-! ## Fetch -/

/-- The first word of two is an instruction of the profile: LDS, STS, JMP or CALL (R91). -/
theorem decode?_isSome_of_two_words {p : Profile} {w : Word} (h : wordLength p w = 2) :
    ∃ i, decode? p w 0 = some i := by
  unfold wordLength at h
  split_ifs at h with hls hmisc
  · obtain ⟨hload | hstore, hlow⟩ := hls
    · exact ⟨_, by rw [decode?_of_load_page p 0 hload, decodeLoad, if_pos hlow]⟩
    · exact ⟨_, by rw [decode?_of_store_page p 0 hstore, decodeStore, if_pos hlow]⟩
  · obtain ⟨rfl, hpage, hkind⟩ := hmisc
    have hlow : field w 1 3 = 0b110 + field w 1 1 := by simp only [field] at *; omega
    have hmisc := decodeMisc_of_jmp_call .pmega 0 (field_lt w 1 1) hlow
    exact ⟨_, (decode?_of_misc_page .pmega 0 hpage).trans hmisc⟩
  · exact absurd h (by decide)

theorem wordLength_of_isReserved {p : Profile} {w : Word} (h : isReserved p w = true) : wordLength p w = 1 := by
  rcases wordLength_eq_one_or_two p w with hlen | hlen
  · exact hlen
  · obtain ⟨i, hi⟩ := decode?_isSome_of_two_words hlen
    exact absurd (hi.symm.trans (decode?_none_of_isReserved p 0 h)) (by simp)

/-- Awake and with nothing to take, a step runs the instruction at the PC (60_exceptions.md R355). -/
theorem step_of_awake {s : State} (hnone : s.takeInputs.deliverable = none) (hawake : s.takeInputs.sleeping = false) :
    step s = s.takeInputs.beginInstr.runInstr := by
  simp [step, State.stepCore, State.action, hnone, hawake]

theorem runInstr_of_fetch_error {s : State} {f : Fault} (h : s.fetch = .error f) : s.runInstr = .fault f := by
  rw [State.runInstr, h]

theorem fetch_error {s : State} {f : Fault} :
    s.fetch = .error f ↔ s.fetchWord s.pc = .error f ∨
      ∃ w, s.fetchWord s.pc = .ok w ∧ (s.secondWord w = .error f ∨
        ∃ w1, s.secondWord w = .ok w1 ∧ s.decodeAt s.pc w w1 = .error f) := by
  simp only [State.fetch, bind_error]

theorem fetchWord_of_lt {s : State} {w : Word} (h : w.toNat < s.cfg.flashWords) :
    s.fetchWord w = .ok (s.progWord w.toNat) :=
  if_pos h

theorem fetch_above_flash {s : State} (h : s.cfg.flashWords ≤ s.pc.toNat) :
    s.fetch = .error (.progAddressOutOfRange (2 * s.pc.toNat)) :=
  fetch_error.mpr (.inl (fetchWord_of_flashWords_le h))

theorem fetch_reserved {s : State} (h : s.pc.toNat < s.cfg.flashWords)
    (hres : isReserved s.cfg.profile (s.progWord s.pc.toNat) = true) :
    s.fetch = .error (.reservedOpcode s.pc (s.progWord s.pc.toNat)) := by
  have hsecond : s.secondWord (s.progWord s.pc.toNat) = .ok 0 := if_neg (by simp [wordLength_of_isReserved hres])
  exact fetch_error.mpr (.inr ⟨_, fetchWord_of_lt h, .inr ⟨0, hsecond, decodeAt_of_isReserved hres _ _⟩⟩)

theorem fetch_second_above_flash {s : State} (h : s.pc.toNat < s.cfg.flashWords)
    (hlen : wordLength s.cfg.profile (s.progWord s.pc.toNat) = 2) (habove : s.cfg.flashWords ≤ (s.pcPlus 1).toNat) :
    s.fetch = .error (.progAddressOutOfRange (2 * (s.pcPlus 1).toNat)) := by
  have hsecond : s.secondWord (s.progWord s.pc.toNat) = .error (.progAddressOutOfRange (2 * (s.pcPlus 1).toNat)) :=
    (if_pos hlen).trans (fetchWord_of_flashWords_le habove)
  exact fetch_error.mpr (.inr ⟨_, fetchWord_of_lt h, .inl hsecond⟩)

/-- Settles O11. The interrupt delay, which the step clears first, is nothing to a fetch. -/
theorem fetchFaults : Obligations.FetchFaults := by
  rintro s u rfl hnone hawake
  rw [step_of_awake hnone hawake]
  refine ⟨fun habove => ?_, fun hpc hres => ?_, fun hpc hlen habove => ?_⟩
  · exact runInstr_of_fetch_error (fetch_above_flash (s := s.takeInputs.beginInstr) habove)
  · exact runInstr_of_fetch_error (fetch_reserved (s := s.takeInputs.beginInstr) hpc hres)
  · exact runInstr_of_fetch_error (fetch_second_above_flash (s := s.takeInputs.beginInstr) hpc hlen habove)

end Sys2Proof.Machine
end

section
/-! SUPPORT. A word and its two bytes, the pointers, and how frames compose (00_scope.md R7; 10_state.md R21;
40_data_transfer.md R160). -/

namespace Sys2Proof.Machine

/-! ## A word and its bytes -/

theorem toNat_hiByte (w : Word) : (hiByte w).toNat = w.toNat / 256 := by
  simp only [hiByte, BitVec.toNat_ofNat]
  omega

theorem toNat_loByte (w : Word) : (loByte w).toNat = w.toNat % 256 := by
  simp [loByte]

theorem toNat_joinBytes (hi lo : Byte) : (joinBytes hi lo).toNat = hi.toNat * 256 + lo.toNat := by
  simp only [joinBytes, BitVec.toNat_ofNat]
  omega

theorem hiByte_eq_extractLsb' (w : Word) : hiByte w = w.extractLsb' 8 8 := by
  apply BitVec.eq_of_toNat_eq
  rw [BitVec.extractLsb'_toNat, Nat.shiftRight_eq_div_pow]
  simp [hiByte]

theorem loByte_eq_extractLsb' (w : Word) : loByte w = w.extractLsb' 0 8 := by
  apply BitVec.eq_of_toNat_eq
  simp [loByte]

@[simp] theorem hiByte_joinBytes (hi lo : Byte) : hiByte (joinBytes hi lo) = hi := by
  apply BitVec.eq_of_toNat_eq
  rw [toNat_hiByte, toNat_joinBytes]
  omega

@[simp] theorem loByte_joinBytes (hi lo : Byte) : loByte (joinBytes hi lo) = lo := by
  apply BitVec.eq_of_toNat_eq
  rw [toNat_loByte, toNat_joinBytes]
  omega

@[simp] theorem joinBytes_hiByte_loByte (w : Word) : joinBytes (hiByte w) (loByte w) = w := by
  apply BitVec.eq_of_toNat_eq
  rw [toNat_joinBytes, toNat_hiByte, toNat_loByte]
  omega

/-! ## Pairs and pointers -/

theorem pairHigh_ne_self (i : Reg) : pairHigh i ≠ i := by
  simp only [pairHigh, ne_eq, Fin.ext_iff, Fin.ofNat]
  omega

/-- A pair reads as the word written to it, whichever its low register is. -/
@[simp] theorem setPair_pair (s : State) (i : Reg) (w : Word) : (s.setPair i w).pair i = w := by
  simp [State.pair, (pairHigh_ne_self i).symm]

@[simp] theorem setPtr_ptr (s : State) (p : Ptr) (w : Word) : (s.setPtr p w).ptr p = w :=
  setPair_pair s p.low w

theorem holds_iff {p : Ptr} {r : Reg} : p.holds r = true ↔ r = p.low ∨ r = pairHigh p.low := by
  simp [Ptr.holds]

theorem holds_eq_false_iff {p : Ptr} {r : Reg} : p.holds r = false ↔ r ≠ p.low ∧ r ≠ pairHigh p.low := by
  simp [Ptr.holds]

theorem setPtr_reg_of_holds_eq_false {p : Ptr} {r : Reg} (h : p.holds r = false) (s : State) (w : Word) :
    (s.setPtr p w).reg r = s.reg r := by
  obtain ⟨hlow, hhigh⟩ := holds_eq_false_iff.mp h
  simp [hlow, hhigh]

theorem setReg_ptr_of_holds_eq_false {p : Ptr} {r : Reg} (h : p.holds r = false) (s : State) (v : Byte) :
    (s.setReg r v).ptr p = s.ptr p := by
  obtain ⟨hlow, hhigh⟩ := holds_eq_false_iff.mp h
  simp [State.ptr, State.pair, hlow.symm, hhigh.symm]

/-- At the data address of a register, the two parts of R160 ask the same of that register. -/
theorem holdsAddr_of_reg (p : Ptr) {a : Word} {d : Reg} (h : a.toNat = d.val) : p.holdsAddr a = p.holds d := by
  rw [Bool.eq_iff_iff, holds_iff, Ptr.holdsAddr, decide_eq_true_eq, h, Fin.ext_iff, Fin.ext_iff]

theorem dispAddr_zero (s : State) (p : Ptr) : s.dispAddr p 0 = s.ptr p := by
  simp [State.dispAddr]

theorem dispAddr_eq_of_toNat {s : State} {p : Ptr} {q : BitVec 6} {a : Word}
    (h : a.toNat = ((s.ptr p).toNat + q.toNat) % 0x10000) : s.dispAddr p q = a := by
  apply BitVec.eq_of_toNat_eq
  rw [h, State.dispAddr, BitVec.toNat_add, BitVec.toNat_setWidth]
  omega

theorem ptr_sub_one_eq_of_toNat {s : State} {p : Ptr} {a : Word}
    (h : a.toNat = ((s.ptr p).toNat + 0xFFFF) % 0x10000) : s.ptr p - 1 = a := by
  bv_omega

/-- An incremented pointer is one up modulo $10000 (20_memory.md R64). -/
theorem toNat_ptr_of_increment (s : State) (p : Ptr) (w n : Word) :
    (((s.setPtr p (w + 1)).advance n).ptr p).toNat = (w.toNat + 1) % 0x10000 := by
  rw [advance_ptr, setPtr_ptr, BitVec.toNat_add]
  rfl

/-! ## Frames -/

theorem SameDevices.trans {s t u : State} (hst : SameDevices s t) (htu : SameDevices t u) : SameDevices s u := by
  obtain ⟨hcfg, hio, hpinB, hpinD, hprev, hsleep, hinputs⟩ := hst
  obtain ⟨hcfg', hio', hpinB', hpinD', hprev', hsleep', hinputs'⟩ := htu
  exact ⟨hcfg'.trans hcfg, hio'.trans hio, hpinB'.trans hpinB, hpinD'.trans hpinD, hprev'.trans hprev,
    hsleep'.trans hsleep, hinputs'.trans hinputs⟩

/-- What two updates leave alone together: all but what either of them lists. -/
theorem FrameStack.trans {s t u : State} {rs rs' : List Reg} {as as' : List Word} (hst : FrameStack rs as s t)
    (htu : FrameStack rs' as' t u) : FrameStack (rs ++ rs') (as ++ as') s u := by
  obtain ⟨hregs, hflags, ⟨hsram, hflash⟩, hdev, hinhibit⟩ := hst
  obtain ⟨hregs', hflags', ⟨hsram', hflash'⟩, hdev', hinhibit'⟩ := htu
  refine ⟨fun j hj => ?regs, fun f hf => (hflags' f hf).trans (hflags f hf), ⟨fun a ha => ?sram, fun b => ?flash⟩,
    hdev.trans hdev', hinhibit'.trans hinhibit⟩
  case regs =>
    rw [List.mem_append, not_or] at hj
    exact (hregs' j hj.2).trans (hregs j hj.1)
  case sram =>
    exact (hsram' a fun b hb => ha b (List.mem_append_right as hb)).trans
      (hsram a fun b hb => ha b (List.mem_append_left as' hb))
  case flash => exact (hflash' b).trans (hflash b)

theorem frameStore_iff {s t : State} {rs : List Reg} {as : List Word} :
    FrameStore rs as s t ↔ FrameStack rs as s t ∧ t.sp = s.sp := by
  constructor
  · rintro ⟨hregs, hflags, hmem, hdev, hsp, hinhibit⟩
    exact ⟨⟨hregs, hflags, hmem, hdev, hinhibit⟩, hsp⟩
  · rintro ⟨⟨hregs, hflags, hmem, hdev, hinhibit⟩, hsp⟩
    exact ⟨hregs, hflags, hmem, hdev, hsp, hinhibit⟩

theorem FrameStore.trans {s t u : State} {rs rs' : List Reg} {as as' : List Word} (hst : FrameStore rs as s t)
    (htu : FrameStore rs' as' t u) : FrameStore (rs ++ rs') (as ++ as') s u := by
  obtain ⟨hstack, hsp⟩ := frameStore_iff.mp hst
  obtain ⟨hstack', hsp'⟩ := frameStore_iff.mp htu
  exact frameStore_iff.mpr ⟨hstack.trans hstack', hsp'.trans hsp⟩

/-- The order in which registers are listed does not matter. -/
theorem FrameStore.mono {s t : State} {rs rs' : List Reg} {as : List Word} (h : FrameStore rs as s t)
    (hsub : rs ⊆ rs') : FrameStore rs' as s t := by
  obtain ⟨hregs, hrest⟩ := h
  exact ⟨fun j hj => hregs j fun hmem => hj (hsub hmem), hrest⟩

/-- An update that stores nowhere and leaves the flags alone. -/
theorem FrameStore.frameRegs {s t : State} {rs : List Reg} (h : FrameStore rs [] s t) : FrameRegs rs [] s t := by
  obtain ⟨hregs, hflags, ⟨hsram, hflash⟩, hrest⟩ := h
  exact ⟨hregs, hflags, ⟨fun a => hsram a fun b hb => absurd hb List.not_mem_nil, hflash⟩, hrest⟩

theorem frameStore_advance (s : State) (n : Word) : FrameStore [] [] s (s.advance n) :=
  ⟨fun _ _ => rfl, fun _ _ => rfl, ⟨fun _ _ => rfl, fun _ => rfl⟩, ⟨rfl, rfl, rfl, rfl, rfl, rfl, rfl⟩, rfl, rfl⟩

theorem frameStore_setPair (s : State) (i : Reg) (w : Word) : FrameStore [i, pairHigh i] [] s (s.setPair i w) :=
  (frameStore_setReg s i (loByte w)).trans (frameStore_setReg _ (pairHigh i) (hiByte w))

theorem frameStore_setPtr (s : State) (p : Ptr) (w : Word) :
    FrameStore [p.low, pairHigh p.low] [] s (s.setPtr p w) :=
  frameStore_setPair s p.low w

/-- An instruction that writes one register and moves the PC on. -/
theorem frameRegs_setReg_advance (s : State) (r : Reg) (v : Byte) (n : Word) :
    FrameRegs [r] [] s ((s.setReg r v).advance n) :=
  ((frameStore_setReg s r v).trans (frameStore_advance _ n)).frameRegs

end Sys2Proof.Machine
end

section
/-! SUPPORT. The moves, the loads and the stores, at the address each form computes (40_data_transfer.md R130 to R155,
R160; 20_memory.md R64, R65). -/

namespace Sys2Proof.Machine

/-! ## A meaning in two parts, the second without faults -/

theorem outcome_bind_pure_of_ok {α : Type} {e : Except Fault α} {a : α} (h : e = .ok a) (g : α → State) :
    outcome (e >>= fun a => pure (g a)) = .next (g a) := by
  rw [h]
  rfl

theorem outcome_bind_of_error {α : Type} {e : Except Fault α} {f : Fault} (h : e = .error f)
    (g : α → Except Fault State) : outcome (e >>= g) = .fault f := by
  rw [h]
  rfl

/-! ## Moves -/

/-- Settles O18: each writes one register and the PC, MOVW a pair whose two bytes are read beforehand. -/
theorem movesComplete : Obligations.MovesComplete := by
  intro s rd rr k
  refine ⟨?mov, ?ldi, ?ser, ?movw⟩
  case mov | ldi | ser => exact ⟨_, rfl, setReg_reg_self .., frameRegs_setReg_advance .., rfl⟩
  case movw =>
    have hframe := (frameStore_setPair s rd (s.pair rr)).trans (frameStore_advance _ 1)
    refine ⟨_, rfl, ?low, ?high, hframe.frameRegs, rfl⟩
    case low => simp [State.pair, (pairHigh_ne_self rd).symm]
    case high => simp [State.pair]

/-! ## Operand combinations without a meaning -/

theorem loadIndirect_undefined {p : Ptr} {m : PtrMode} {rd : Reg} (hm : m.modifies = true) (hr : p.holds rd = true)
    (s : State) : s.loadIndirect p m rd = .error (.undefinedOperandCombination s.pc) :=
  if_pos (by rw [hm, hr]; rfl)

theorem storeIndirect_undefined {s : State} {p : Ptr} {m : PtrMode} {rr : Reg} (hm : m.modifies = true)
    (h : p.holds rr = true ∨ p.holdsAddr (s.effAddr p m) = true) :
    s.storeIndirect p m rr = .error (.undefinedOperandCombination s.pc) :=
  if_pos (by rw [hm, Bool.true_and, Bool.or_eq_true]; exact h)

section
variable {s : State} {p : Ptr} {r : Reg} {w : Word}

theorem storeIndirect_postInc_undefined (h : s.ptr p = w) (hw : p.holdsAddr w = true) :
    s.storeIndirect p .postInc r = .error (.undefinedOperandCombination s.pc) :=
  storeIndirect_undefined rfl (.inr (by rwa [State.effAddr, h]))

theorem storeIndirect_preDec_undefined (h : s.ptr p = w) (hw : p.holdsAddr (w - 1) = true) :
    s.storeIndirect p .preDec r = .error (.undefinedOperandCombination s.pc) :=
  storeIndirect_undefined rfl (.inr (by rwa [State.effAddr, h]))

end

/-- The modifying loads and stores of a register of their own pointer (R160 (a)). -/
theorem outcome_own_pointer_undefined {p : Ptr} {r : Reg} (hr : p.holds r = true) (s : State) :
    outcome (s.loadIndirect p .postInc r) = .fault (.undefinedOperandCombination s.pc) ∧
      outcome (s.loadIndirect p .preDec r) = .fault (.undefinedOperandCombination s.pc) ∧
      outcome (s.storeIndirect p .postInc r) = .fault (.undefinedOperandCombination s.pc) ∧
      outcome (s.storeIndirect p .preDec r) = .fault (.undefinedOperandCombination s.pc) :=
  ⟨outcome_fault.mpr (loadIndirect_undefined rfl hr s), outcome_fault.mpr (loadIndirect_undefined rfl hr s),
    outcome_fault.mpr (storeIndirect_undefined rfl (.inl hr)),
    outcome_fault.mpr (storeIndirect_undefined rfl (.inl hr))⟩

/-- Settles O25: by the data register for each pointer, and by the address for each pointer and direction. -/
theorem undefinedOperandCombinations : Obligations.UndefinedOperandCombinations := by
  rintro s r _ rfl
  refine ⟨fun hr => ?x, fun hr => ?y, fun hr => ?z, ?incX, ?incY, ?incZ, ?decX, ?decY, ?decZ⟩
  case x => exact outcome_own_pointer_undefined (p := .x) (holds_iff.mpr hr) s
  case y => exact outcome_own_pointer_undefined (p := .y) (holds_iff.mpr hr) s
  case z =>
    have hr : Ptr.z.holds r = true := holds_iff.mpr hr
    obtain ⟨hldInc, hldDec, hstInc, hstDec⟩ := outcome_own_pointer_undefined hr s
    exact ⟨hldInc, hldDec, hstInc, hstDec, if_pos hr⟩
  case incX | incY | incZ =>
    rintro (h | h) <;> exact outcome_fault.mpr (storeIndirect_postInc_undefined h rfl)
  case decX | decY | decZ =>
    rintro (h | h) <;> exact outcome_fault.mpr (storeIndirect_preDec_undefined h rfl)

/-! ## Loads -/

theorem loadIndirect_plain_eq_loadFrom (s : State) (p : Ptr) (rd : Reg) :
    s.loadIndirect p .plain rd = s.loadFrom (s.ptr p) rd 1 := by
  rw [loadIndirect_plain, dispAddr_zero]

/-- A load of a given address, by any instruction that means it. -/
theorem loadsByte_of_exec {s : State} {i : Instr} {a : Word} {rd : Reg} {n : Word}
    (hi : exec i s = outcome (s.loadFrom a rd n)) : LoadsByte i a rd n s := by
  rw [LoadsByte, hi]
  refine ⟨fun v hv => ?value, fun f hf => outcome_bind_of_error hf _⟩
  exact ⟨_, outcome_bind_pure_of_ok hv _, setReg_reg_self .., frameRegs_setReg_advance .., rfl⟩

/-- Settles O19: each form is a load of the address it computes. -/
theorem plainLoads : Obligations.PlainLoads := by
  intro s rd q k
  refine ⟨?x, ?y, ?z, fun a ha => ?dispY, fun a ha => ?dispZ, loadsByte_of_exec rfl⟩
  case x | y | z => exact loadsByte_of_exec (congrArg outcome (loadIndirect_plain_eq_loadFrom ..))
  case dispY | dispZ =>
    rw [← dispAddr_eq_of_toNat ha]
    exact loadsByte_of_exec rfl

section
variable {p : Ptr} {rd : Reg} (hr : p.holds rd = false) (s : State)
include hr

theorem loadIndirect_postInc_eq :
    s.loadIndirect p .postInc rd =
      s.memRead (s.ptr p) >>= fun v => pure (((s.setReg rd v).setPtr p (s.ptr p + 1)).advance 1) := by
  rw [State.loadIndirect, hr, Bool.and_false, if_neg Bool.false_ne_true]
  rfl

theorem loadIndirect_preDec_eq :
    s.loadIndirect p .preDec rd =
      (s.setPtr p (s.ptr p - 1)).memRead (s.ptr p - 1) >>= fun v =>
        pure (((s.setPtr p (s.ptr p - 1)).setReg rd v).advance 1) := by
  rw [State.loadIndirect, hr, Bool.and_false, if_neg Bool.false_ne_true]
  rfl

end

/-- Settles O20: the data register and the pointer are written after the read, and are different registers. -/
theorem postIncrementLoads : Obligations.PostIncrementLoads := by
  intro s rd i p hform hr
  have hi : exec i s = outcome (s.loadIndirect p .postInc rd) := by
    rcases hform with ⟨rfl, rfl⟩ | ⟨rfl, rfl⟩ | ⟨rfl, rfl⟩ <;> rfl
  rw [hi, loadIndirect_postInc_eq hr]
  refine ⟨fun v hv => ⟨_, outcome_bind_pure_of_ok hv _, ?data, ?ptr, ?frame, rfl⟩,
    fun f hf => outcome_bind_of_error hf _⟩
  case data => rw [advance_reg, setPtr_reg_of_holds_eq_false hr, setReg_reg_self]
  case ptr => exact toNat_ptr_of_increment ..
  case frame =>
    exact (((frameStore_setReg s rd v).trans (frameStore_setPtr ..)).trans (frameStore_advance ..)).frameRegs

/-- Settles O21: the pointer is written before the read, the data register after it. -/
theorem preDecrementLoads : Obligations.PreDecrementLoads := by
  rintro s _ rd i p a hform hr ha rfl
  obtain rfl := ptr_sub_one_eq_of_toNat ha
  have hi : exec i s = outcome (s.loadIndirect p .preDec rd) := by
    rcases hform with ⟨rfl, rfl⟩ | ⟨rfl, rfl⟩ | ⟨rfl, rfl⟩ <;> rfl
  rw [hi, loadIndirect_preDec_eq hr]
  refine ⟨fun v hv => ⟨_, outcome_bind_pure_of_ok hv _, setReg_reg_self .., ?ptr, ?frame, rfl⟩,
    fun f hf => outcome_bind_of_error hf _⟩
  case ptr => rw [advance_ptr, setReg_ptr_of_holds_eq_false hr, setPtr_ptr]
  case frame =>
    have hframe := ((frameStore_setPtr s p (s.ptr p - 1)).trans (frameStore_setReg _ rd v)).trans
      (frameStore_advance _ 1)
    exact (hframe.mono (by simp)).frameRegs

/-! ## Stores -/

theorem storeIndirect_plain_eq_storeTo (s : State) (p : Ptr) (rr : Reg) :
    s.storeIndirect p .plain rr = s.storeTo (s.ptr p) rr 1 := by
  rw [storeIndirect_plain, dispAddr_zero]

section
variable {p : Ptr} {rr : Reg} {s : State} (hr : p.holds rr = false)
include hr

theorem storeIndirect_postInc_eq (ha : p.holdsAddr (s.ptr p) = false) :
    s.storeIndirect p .postInc rr =
      s.memWrite (s.ptr p) (s.reg rr) >>= fun u => pure ((u.setPtr p (s.ptr p + 1)).advance 1) := by
  rw [State.storeIndirect, State.effAddr, hr, ha, Bool.or_false, Bool.and_false, if_neg Bool.false_ne_true]

/-- The byte stored is Rr's, which the pointer's decrement leaves alone. -/
theorem storeIndirect_preDec_eq (ha : p.holdsAddr (s.ptr p - 1) = false) :
    s.storeIndirect p .preDec rr =
      (s.setPtr p (s.ptr p - 1)).memWrite (s.ptr p - 1) (s.reg rr) >>= fun u => pure (u.advance 1) := by
  rw [State.storeIndirect, State.effAddr, hr, ha, Bool.or_false, Bool.and_false, if_neg Bool.false_ne_true]
  simp only [setPtr_reg_of_holds_eq_false hr]

end

/-- What comes of a write of the data space, by the kind of place written; `g` is what follows the write. -/
theorem outcome_memWrite {s : State} {a : Word} {v : Byte} {g : State → State}
    {o : Host.Outcome State Fault Refusal} (ho : o = outcome (s.memWrite a v >>= fun u => pure (g u))) :
    (s.sramAt a = true → o = .next (g (s.setSram a v))) ∧
      (∀ d : Reg, a.toNat = d.val → o = .next (g (s.setReg d v))) ∧
      (∀ (b : IoAddr) (u : State), a.toNat = b.toNat + 0x20 → s.ioWrite b v = .ok u → o = .next (g u)) ∧
      ∀ f, s.memWrite a v = .error f → o = .fault f := by
  subst ho
  exact ⟨fun hsram => outcome_bind_pure_of_ok (memWrite_of_sramAt hsram v) g,
    fun _ hd => outcome_bind_pure_of_ok (memWrite_of_reg hd v) g,
    fun _ _ hb hu => outcome_bind_pure_of_ok (memWrite_of_io hb hu) g,
    fun _ hf => outcome_bind_of_error hf _⟩

/-- A store to a given address, by any instruction that means it. -/
theorem storesByte_of_exec {s : State} {i : Instr} {a : Word} {rr : Reg} {n : Word}
    (hi : exec i s = outcome (s.storeTo a rr n)) : StoresByte i a rr n s := by
  obtain ⟨hsram, hreg, hio, hfault⟩ := outcome_memWrite hi
  refine ⟨fun h => ⟨_, hsram h, by simp, ?sram, rfl⟩, fun d h => ⟨_, hreg d h, setReg_reg_self .., ?reg, rfl⟩,
    hio, hfault⟩
  case sram => exact (frameStore_setSram ..).trans (frameStore_advance ..)
  case reg => exact (frameStore_setReg ..).trans (frameStore_advance ..)

/-- Settles O22: each form is a store to the address it computes. -/
theorem plainStores : Obligations.PlainStores := by
  intro s rr q k
  refine ⟨?x, ?y, ?z, fun a ha => ?dispY, fun a ha => ?dispZ, storesByte_of_exec rfl⟩
  case x | y | z => exact storesByte_of_exec (congrArg outcome (storeIndirect_plain_eq_storeTo ..))
  case dispY | dispZ =>
    rw [← dispAddr_eq_of_toNat ha]
    exact storesByte_of_exec rfl

/-- Settles O23: the pointer is written after the byte is stored, at the address it held. -/
theorem postIncrementStores : Obligations.PostIncrementStores := by
  rintro s rr i p _ hform rfl hr ha
  have hi : exec i s = outcome (s.storeIndirect p .postInc rr) := by
    rcases hform with ⟨rfl, rfl⟩ | ⟨rfl, rfl⟩ | ⟨rfl, rfl⟩ <;> rfl
  have hframe (u : State) : FrameStore [p.low, pairHigh p.low] [] u ((u.setPtr p (s.ptr p + 1)).advance 1) :=
    (frameStore_setPtr ..).trans (frameStore_advance ..)
  rw [storeIndirect_postInc_eq hr ha] at hi
  obtain ⟨hsram, hreg, hio, hfault⟩ := outcome_memWrite hi
  refine ⟨fun h => ⟨_, hsram h, by simp, toNat_ptr_of_increment .., ?sram, rfl⟩,
    fun d h => ⟨_, hreg d h, ?data, toNat_ptr_of_increment .., ?reg, rfl⟩, hio, hfault⟩
  case sram => exact (frameStore_setSram ..).trans (hframe _)
  case data =>
    have hd : p.holds d = false := (holdsAddr_of_reg p h).symm.trans ha
    rw [advance_reg, setPtr_reg_of_holds_eq_false hd, setReg_reg_self]
  case reg => exact (frameStore_setReg ..).trans (hframe _)

/-- Settles O24: the pointer is written first, and the byte stored at the address it then holds. -/
theorem preDecrementStores : Obligations.PreDecrementStores := by
  rintro s _ rr i p a hform ha rfl hr hheld
  obtain rfl := ptr_sub_one_eq_of_toNat ha
  have hi : exec i s = outcome (s.storeIndirect p .preDec rr) := by
    rcases hform with ⟨rfl, rfl⟩ | ⟨rfl, rfl⟩ | ⟨rfl, rfl⟩ <;> rfl
  have hframe := frameStore_setPtr s p (s.ptr p - 1)
  rw [storeIndirect_preDec_eq hr hheld] at hi
  obtain ⟨hsram, hreg, hio, hfault⟩ := outcome_memWrite hi
  refine ⟨fun h => ⟨_, hsram h, by simp, setPtr_ptr .., ?sram, rfl⟩,
    fun d h => ⟨_, hreg d h, setReg_reg_self .., ?ptr, ?reg, rfl⟩, hio, hfault⟩
  case sram => exact hframe.trans ((frameStore_setSram ..).trans (frameStore_advance ..))
  case ptr =>
    have hd : p.holds d = false := (holdsAddr_of_reg p h).symm.trans hheld
    rw [advance_ptr, setReg_ptr_of_holds_eq_false hd, setPtr_ptr]
  case reg => exact (hframe.trans ((frameStore_setReg ..).trans (frameStore_advance ..))).mono (by simp)

end Sys2Proof.Machine
end

section
/-! SUPPORT. Program memory byte by byte, the I/O instructions, and a pop after a push (40_data_transfer.md R156 to R161;
44_mega_extension.md R311, R312; 20_memory.md R66). -/

namespace Sys2Proof.Machine

/-! ## Program memory -/

/-- Byte `z` of program memory is the low byte of its word where `z` is even, the high byte where it is odd (R66). -/
theorem flashByte_eq_extractLsb' (s : State) (z : Nat) :
    (if z % 2 = 0 then (s.progWord (z / 2)).extractLsb' 0 8 else (s.progWord (z / 2)).extractLsb' 8 8) =
      s.flashByte z := by
  have hword : s.progWord (z / 2) = joinBytes (s.flashByte (2 * (z / 2) + 1)) (s.flashByte (2 * (z / 2))) := rfl
  rw [← loByte_eq_extractLsb', ← hiByte_eq_extractLsb', hword, loByte_joinBytes, hiByte_joinBytes]
  split
  next heven => rw [show 2 * (z / 2) = z by omega]
  next hodd => rw [show 2 * (z / 2) + 1 = z by omega]

theorem progByte_of_lt {s : State} {b : Word} (h : b.toNat / 2 < s.cfg.flashWords) :
    s.progByte b = .ok (s.flashByte b.toNat) := by
  rw [State.progByte, if_pos h, ← flashByte_eq_extractLsb', loByte_eq_extractLsb', hiByte_eq_extractLsb']
  exact (apply_ite Except.ok ..).symm

theorem progByte_of_le {s : State} {b : Word} (h : s.cfg.flashWords ≤ b.toNat / 2) :
    s.progByte b = .error (.progAddressOutOfRange b.toNat) :=
  if_neg (Nat.not_lt.mpr h)

theorem z_holds_eq_false {r : Reg} (h30 : r ≠ 30) (h31 : r ≠ 31) : Ptr.z.holds r = false :=
  holds_eq_false_iff.mpr ⟨h30, h31⟩

theorem exec_lpmZInc {s : State} {rd : Reg} (h : Ptr.z.holds rd = false) :
    exec (.lpmZInc rd) s = outcome (s.progByte (s.ptr .z) >>= fun v =>
      pure (((s.setReg rd v).setPtr .z (s.ptr .z + 1)).advance 1)) :=
  if_neg (by rw [h]; exact Bool.false_ne_true)

/-- Settles O26: the three forms read the same byte, and fault alike where there is none. -/
theorem programMemoryLoads : Obligations.ProgramMemoryLoads := by
  rintro s rd _ _ v rfl rfl hv
  rw [flashByte_eq_extractLsb'] at hv
  subst hv
  refine ⟨fun hz => ⟨rfl, ?lpm, ?lpmZ, fun h30 h31 => ?lpmZInc⟩, fun hz => ⟨?fault, ?faultZ, fun h30 h31 => ?faultZInc⟩⟩
  case lpm | lpmZ =>
    exact ⟨_, outcome_bind_pure_of_ok (progByte_of_lt hz) _, setReg_reg_self .., frameRegs_setReg_advance .., rfl⟩
  case lpmZInc =>
    have hr := z_holds_eq_false h30 h31
    rw [exec_lpmZInc hr]
    refine ⟨_, outcome_bind_pure_of_ok (progByte_of_lt hz) _, ?data, toNat_ptr_of_increment .., ?frame, rfl⟩
    case data => rw [advance_reg, setPtr_reg_of_holds_eq_false hr, setReg_reg_self]
    case frame =>
      exact (((frameStore_setReg s rd _).trans (frameStore_setPtr _ .z _)).trans (frameStore_advance ..)).frameRegs
  case fault | faultZ => exact outcome_bind_of_error (progByte_of_le hz) _
  case faultZInc =>
    rw [exec_lpmZInc (z_holds_eq_false h30 h31)]
    exact outcome_bind_of_error (progByte_of_le hz) _

/-! ## I/O registers -/

theorem sameMemory_of_same {s t : State} (hs : t.sram = s.sram) (hf : t.flash = s.flash) : SameMemory s t :=
  ⟨fun a => by rw [State.sramByte, State.sramByte, hs], fun b => by rw [State.flashByte, State.flashByte, hf]⟩

theorem sameRegsBut_nil_of_regs_eq {s t : State} (h : t.regs = s.regs) : SameRegsBut [] s t :=
  fun j _ => reg_congr h j

theorem pcPlus_congr {s t : State} (hcfg : t.cfg = s.cfg) (hpc : t.pc = s.pc) (n : Word) : t.pcPlus n = s.pcPlus n := by
  rw [State.pcPlus, State.pcPlus, hcfg, hpc]

theorem exec_inPort {s : State} {r : Reg} {p : IoAddr} {q : IoReg} (hq : s.ioRegAt p = some q) :
    exec (.inPort r p) s = .next ((s.setReg r (s.ioRegRead q)).advance 1) :=
  outcome_bind_pure_of_ok (ioRead_ok.mpr ⟨q, hq, rfl⟩) _

theorem exec_outPort {s u : State} {r : Reg} {p : IoAddr} {q : IoReg} (hq : s.ioRegAt p = some q)
    (hu : s.ioRegWrite (s.reg r) q = some u) : exec (.outPort p r) s = .next (u.advance 1) :=
  outcome_bind_pure_of_ok (ioWrite_ok.mpr ⟨q, hq, hu⟩) _

/-- Settles O27: what OUT leaves alone is what a write of an I/O register does; of SREG nothing but SREG and the delay
changes. -/
theorem portTransfers : Obligations.PortTransfers := by
  intro s r p q hq
  refine ⟨⟨_, exec_inPort hq, setReg_reg_self .., frameRegs_setReg_advance .., rfl⟩, fun u hu => ?out, ?sreg⟩
  case out =>
    obtain ⟨hcfg, hregs, hpc, hsram, hflash, hpinB, hpinD, hsleep, -⟩ := ioRegWrite_frame hu
    exact ⟨_, exec_outPort hq hu, rfl, sameRegsBut_nil_of_regs_eq hregs, sameMemory_of_same hsram hflash, hcfg, hpinB,
      hpinD, hsleep, pcPlus_congr hcfg hpc 1⟩
  case sreg =>
    rintro rfl
    exact ⟨_, exec_outPort hq rfl, rfl, sameRegsBut_nil_of_regs_eq rfl, sameMemory_of_same rfl rfl,
      ⟨rfl, rfl, rfl, rfl, rfl, rfl, rfl⟩, rfl, rfl, rfl⟩

/-! ## The stack -/

theorem spw_of_cfg_wf {c : Config} (h : c.wf = true) : c.spw = 8 ∨ c.spw = 16 := by
  simp only [Config.wf, Bool.and_eq_true, decide_eq_true_eq] at h
  obtain ⟨⟨⟨-, hspw⟩, -⟩, -⟩ := h
  exact hspw

/-- A pop's SP undoes a push's, where SP is within its width (10_state.md R30, R32). -/
theorem wrapTo_spBelow_add_one {s : State} (hs : s.wf = true) : wrapTo s.cfg.spw (s.spBelow + 1) = s.sp := by
  have hparts := State.wf_iff.mp hs
  have hsp := hparts.sp
  have hone : (1 : Word).toNat = 1 := rfl
  apply BitVec.eq_of_toNat_eq
  rw [toNat_wrapTo, BitVec.toNat_add, State.spBelow, toNat_wrapTo, BitVec.toNat_sub, hone]
  rcases spw_of_cfg_wf hparts.cfg with h | h <;> rw [h] at hsp ⊢ <;> omega

theorem sramAt_congr {s t : State} (h : t.cfg = s.cfg) (a : Word) : t.sramAt a = s.sramAt a := by
  rw [State.sramAt, State.sramAt, State.inSram, State.inSram, h]

/-- Settles O29: POP reads the byte PUSH stored, at the address SP comes back to. -/
theorem pushThenPop : Obligations.PushThenPop := by
  intro s rr rd hs hsram
  obtain ⟨hpush, -⟩ := pushAndPop s _ rr rfl
  obtain ⟨t, ht, hbyte, hbelow, hframe, -⟩ := hpush hsram
  have ⟨_, _, _, ⟨hcfg, _⟩, _⟩ := hframe
  have hsp : (t.setSp (t.sp + 1)).sp = s.sp := by
    rw [setSp_sp, hcfg, hbelow, wrapTo_spBelow_add_one hs]
  have hread : (t.setSp (t.sp + 1)).memRead (t.setSp (t.sp + 1)).sp = .ok (s.reg rr) := by
    rw [hsp]
    exact memRead_of_sramByte_some ((sramAt_congr hcfg _).trans hsram) hbyte
  obtain ⟨-, -, -, -, hpop, -⟩ := pushAndPop t _ rd rfl
  obtain ⟨u, hu, hdata, husp, hframe', -⟩ := hpop _ hread
  obtain ⟨hregs, hflags, hmem, -⟩ := hframe.trans hframe'
  exact ⟨t, u, ht, hu, hdata, husp.trans hsp, hregs, hflags, hmem⟩

end Sys2Proof.Machine
end

section
/-! SUPPORT. Bits of a byte and the shifts as arithmetic, and what an instruction that writes a register and flags
leaves alone (41_bit_and_bit_test.md R174 to R179; 42_arithmetic_logic.md R219). -/

namespace Sys2Proof.Machine

/-! ## Bits as arithmetic -/

theorem byteBit_eq_decide (v : Byte) (n : BitNo) : byteBit v n = decide (v.toNat / 2 ^ n.val % 2 = 1) :=
  Nat.testBit_eq_decide_div_mod_eq

theorem byteBit_at_zero (v : Byte) : byteBit v 0 = decide (v.toNat % 2 = 1) := by
  simp [byteBit_eq_decide]

theorem byteBit_at_three (v : Byte) : byteBit v 3 = decide (8 ≤ v.toNat % 16) := by
  rw [byteBit_eq_decide, decide_eq_decide]
  change v.toNat / 2 ^ 3 % 2 = 1 ↔ _
  omega

/-- The sign of a byte. -/
theorem byteBit_at_seven (v : Byte) : byteBit v 7 = decide (128 ≤ v.toNat) := by
  rw [byteBit_eq_decide, decide_eq_decide]
  change v.toNat / 2 ^ 7 % 2 = 1 ↔ _
  omega

theorem byte_beq_zero (v : Byte) : (v == 0) = decide (v.toNat = 0) := by
  rw [beq_eq_decide, decide_eq_decide, BitVec.toNat_eq]
  rfl

/-- Writing a bit that is 0 adds it in. -/
theorem toNat_setByteBit_of_clear {v : Byte} {n : BitNo} (h : byteBit v n = false) (b : Bool) :
    (setByteBit v n b).toNat = v.toNat + 2 ^ n.val * b.toNat := by
  cases b with
  | false =>
    have hsame : setByteBit v n false = v := byte_ext fun m => by
      rw [byteBit_setByteBit]
      split
      next hm => rw [hm, h]
      next => rfl
    simp [hsame]
  | true =>
    have hset : setByteBit v n true = v ||| BitVec.twoPow 8 n.val := rfl
    have hand : v &&& BitVec.twoPow 8 n.val = 0#8 := by
      rw [BitVec.and_twoPow]
      exact if_neg (Bool.eq_false_iff.mp h)
    rw [hset, ← BitVec.add_eq_or_of_and_eq_zero _ _ hand, BitVec.toNat_add_of_and_eq_zero hand,
      BitVec.toNat_twoPow_of_lt n.isLt]
    simp

/-! ## The shifts as arithmetic -/

theorem toNat_shiftLeft_one (v : Byte) : (v <<< 1).toNat = v.toNat * 2 % 256 := by
  rw [BitVec.toNat_shiftLeft, Nat.shiftLeft_eq]

theorem toNat_shiftRight_one (v : Byte) : (v >>> 1).toNat = v.toNat / 2 := by
  rw [BitVec.toNat_ushiftRight, Nat.shiftRight_one]

/-- A bit shifted in from the right (R176). -/
theorem toNat_setByteBit_shiftLeft_one (v : Byte) (c : Bool) :
    (setByteBit (v <<< 1) 0 c).toNat = (v.toNat * 2 + c.toNat) % 256 := by
  have hclear : byteBit (v <<< 1) 0 = false := by simp [byteBit]
  have hc := c.toNat_le
  rw [toNat_setByteBit_of_clear hclear, toNat_shiftLeft_one]
  change v.toNat * 2 % 256 + 2 ^ 0 * c.toNat = _
  omega

/-- A bit shifted in from the left (R177, R178). -/
theorem toNat_setByteBit_shiftRight_one (v : Byte) (c : Bool) :
    (setByteBit (v >>> 1) 7 c).toNat = v.toNat / 2 + 128 * c.toNat := by
  have hclear : byteBit (v >>> 1) 7 = false := by simp [byteBit]
  rw [toNat_setByteBit_of_clear hclear, toNat_shiftRight_one]
  rfl

/-- The shift right that keeps the sign halves the signed number, rounding down (R178). -/
theorem toInt_setByteBit_shiftRight_one (v : Byte) : (setByteBit (v >>> 1) 7 (byteBit v 7)).toInt = v.toInt / 2 := by
  have hsign : (byteBit v 7).toNat = v.toNat / 2 ^ 7 % 2 := Nat.toNat_testBit ..
  rw [BitVec.toInt_eq_toNat_cond, BitVec.toInt_eq_toNat_cond, toNat_setByteBit_shiftRight_one, hsign]
  split_ifs <;> omega

theorem toNat_swapNibbles (v : Byte) : (v <<< 4 ||| v >>> 4).toNat = v.toNat % 16 * 16 + v.toNat / 16 := by
  have hlt := v.isLt
  have hhigh : (v <<< 4).toNat = 2 ^ 4 * (v.toNat % 16) := by
    rw [BitVec.toNat_shiftLeft, Nat.shiftLeft_eq]
    omega
  have hlow : (v >>> 4).toNat = v.toNat / 16 := by
    rw [BitVec.toNat_ushiftRight, Nat.shiftRight_eq_div_pow]
  rw [BitVec.toNat_or, hhigh, hlow, ← Nat.two_pow_add_eq_or_of_lt (by omega)]
  omega

/-! ## Frames with flags -/

/-- What an update of a state with one register written leaves alone of the state before. -/
theorem FrameRegs.of_setReg {s t : State} {r : Reg} {v : Byte} {fs : List Flag}
    (h : FrameRegs [] fs (s.setReg r v) t) : FrameRegs [r] fs s t := by
  obtain ⟨hregs, hrest⟩ := h
  refine ⟨fun j hj => (hregs j List.not_mem_nil).trans (setReg_reg_ne s v ?_), hrest⟩
  exact List.ne_of_not_mem_cons hj

theorem frameRegs_setFlags_advance {s : State} {sreg : Byte} {fs : List Flag}
    (h : ∀ f, f ∉ fs → flagOf sreg f = s.flag f) (n : Word) : FrameRegs [] fs s ((s.setFlags sreg).advance n) :=
  ⟨fun _ _ => rfl, h, ⟨fun _ => rfl, fun _ => rfl⟩, ⟨rfl, rfl, rfl, rfl, rfl, rfl, rfl⟩, rfl, rfl⟩

/-- An instruction that writes one register and SREG and goes on by one word, from the flags of the SREG it writes. -/
theorem givesByte_of_exec {s : State} {i : Instr} {rd : Reg} {r sreg : Byte} {v : Bool} {fs : List (Flag × Bool)}
    (hi : exec i s = .next (((s.setReg rd r).setFlags sreg).advance 1)) (hres : ResultFlags (s.setFlags sreg) r v)
    (hset : ∀ c ∈ fs, flagOf sreg c.1 = c.2)
    (hkeep : ∀ f, f ∉ [.v, .n, .z, .s] ++ fs.map (·.1) → flagOf sreg f = s.flag f) : GivesByte i rd r v fs s :=
  ⟨_, hi, setReg_reg_self .., hres, hset, (frameRegs_setFlags_advance (s := s.setReg rd r) hkeep 1).of_setReg, rfl⟩

end Sys2Proof.Machine
end

section
/-! The statements about the bit instructions (41_bit_and_bit_test.md R170 to R202; 60_exceptions.md R348, R355, R366,
R367). -/

namespace Sys2Proof.Machine

/-! ## Shifts and rotates -/

section
variable {s : State} {i : Instr} {rd : Reg}

/-- A shift to the right sets C from the bit shifted out (R175, R177, R178). -/
theorem givesByte_of_shiftFlags {r : Byte} {out : Bool}
    (hi : exec i s = .next (s.bitResult rd r (shiftFlags s.sreg out r))) :
    GivesByte i rd r (decide (128 ≤ r.toNat) ^^ out) [(.c, out)] s := by
  refine givesByte_of_exec hi ?_ ?_ fun f hf => ?_
  · simp only [ResultFlags, setFlags_flag, flagOf_shiftFlags, byteBit_at_seven, byte_beq_zero, and_self]
  · simp [flagOf_shiftFlags]
  · rw [flagOf_shiftFlags]
    cases f with
    | h | t | i => rfl
    | _ => simp at hf

/-- A shift to the left sets C from bit 7 and H from bit 3 of the operand (R174, R176). -/
theorem givesByte_of_shiftLeftFlags {v r : Byte}
    (hi : exec i s = .next (s.bitResult rd r (shiftLeftFlags s.sreg v r))) :
    GivesByte i rd r (decide (128 ≤ r.toNat) ^^ decide (128 ≤ v.toNat))
      [(.c, decide (128 ≤ v.toNat)), (.h, decide (8 ≤ v.toNat % 16))] s := by
  refine givesByte_of_exec hi ?_ ?_ fun f hf => ?_
  · simp only [ResultFlags, setFlags_flag, flagOf_shiftLeftFlags, flagOf_shiftFlags, byteBit_at_seven, byte_beq_zero,
      reduceCtorEq, if_false, and_self]
  · simp [flagOf_shiftLeftFlags, flagOf_shiftFlags, byteBit_at_seven, byteBit_at_three]
  · rw [flagOf_shiftLeftFlags, if_neg fun h => hf (by simp [h]), flagOf_shiftFlags]
    cases f with
    | t | i => rfl
    | _ => simp at hf

end

/-- Settles O39: the number names the byte the instruction writes, and the flags are those of a shift. -/
theorem shiftsAndRotates : Obligations.ShiftsAndRotates := by
  rintro s rd _ r _ out rfl rfl
  refine ⟨?lsl, ?rol, ?lsr, ?ror, ?asr⟩
  case lsl =>
    rintro hr rfl
    obtain rfl := BitVec.eq_of_toNat_eq (hr.trans (toNat_shiftLeft_one _).symm)
    exact givesByte_of_shiftLeftFlags rfl
  case rol =>
    rintro hr rfl
    obtain rfl := BitVec.eq_of_toNat_eq (hr.trans (toNat_setByteBit_shiftLeft_one ..).symm)
    exact givesByte_of_shiftLeftFlags rfl
  case lsr =>
    rintro hr rfl
    obtain rfl := BitVec.eq_of_toNat_eq (hr.trans (toNat_shiftRight_one _).symm)
    rw [← byteBit_at_zero]
    exact givesByte_of_shiftFlags rfl
  case ror =>
    rintro hr rfl
    obtain rfl := BitVec.eq_of_toNat_eq (hr.trans (toNat_setByteBit_shiftRight_one ..).symm)
    rw [← byteBit_at_zero]
    exact givesByte_of_shiftFlags rfl
  case asr =>
    rintro hr rfl
    obtain rfl := BitVec.eq_of_toInt_eq (hr.trans (toInt_setByteBit_shiftRight_one _).symm)
    rw [← byteBit_at_zero]
    exact givesByte_of_shiftFlags rfl

/-- Settles O40: BLD's byte and BST's flag are each a byte with one bit replaced. -/
theorem swapAndTransferBit : Obligations.SwapAndTransferBit := by
  intro s r b
  refine ⟨⟨_, rfl, ?swap, frameRegs_setReg_advance .., rfl⟩, ⟨_, rfl, ?bst, ?frame, rfl⟩,
    ⟨_, rfl, fun n hn => ?bld, frameRegs_setReg_advance .., rfl⟩⟩
  case swap => rw [advance_reg, setReg_reg_self, toNat_swapNibbles]
  case bst => exact (flagOf_setFlag ..).trans (if_pos rfl)
  case frame =>
    refine frameRegs_setFlags_advance (fun f hf => ?_) 1
    exact (flagOf_setFlag ..).trans (if_neg (List.ne_of_not_mem_cons hf))
  case bld =>
    rw [advance_reg, setReg_reg_self]
    have hbit := byteBit_setByteBit (s.reg r) b (s.flag .t) ⟨n, hn⟩
    simpa only [byteBit, Fin.ext_iff] using hbit

/-! ## Flags -/

/-- Setting I from 0 is the one case in which a write of a flag delays interrupts (60_exceptions.md R355). -/
theorem delays_setFlag (sreg : Byte) (f : Flag) (b : Bool) :
    (!flagOf sreg .i && flagOf (setFlag sreg f b) .i) = (f == .i && b && !flagOf sreg .i) := by
  rw [flagOf_setFlag]
  by_cases hf : f = .i
  · subst hf
    simp [Bool.and_comm]
  · simp [hf, Ne.symm hf]

theorem givesFlag_of_exec {s : State} {i : Instr} {f : Flag} {b : Bool}
    (hi : exec i s = .next (s.sregBitWrite f.bit b)) : GivesFlag i f b s := by
  refine ⟨_, hi, ?value, fun g hg => ?others, fun _ _ => rfl, ⟨fun _ => rfl, fun _ => rfl⟩,
    ⟨rfl, rfl, rfl, rfl, rfl, rfl, rfl⟩, rfl, ?delay, rfl⟩
  case value => exact (flagOf_setFlag ..).trans (if_pos rfl)
  case others => exact (flagOf_setFlag ..).trans (if_neg (List.ne_of_not_mem_cons hg))
  case delay => exact congrArg (s.inhibit || ·) (delays_setFlag s.sreg f b)

theorem Flag.exists_bit (n : BitNo) : ∃ f : Flag, f.bit = n :=
  match n with
  | 0 => ⟨.c, rfl⟩
  | 1 => ⟨.z, rfl⟩
  | 2 => ⟨.n, rfl⟩
  | 3 => ⟨.v, rfl⟩
  | 4 => ⟨.s, rfl⟩
  | 5 => ⟨.h, rfl⟩
  | 6 => ⟨.t, rfl⟩
  | 7 => ⟨.i, rfl⟩

/-- Settles O41: each named form is BSET or BCLR of its flag's bit (R184 to R199). -/
theorem flagInstructions : Obligations.FlagInstructions := by
  intro s
  refine ⟨fun f => ⟨givesFlag_of_exec rfl, givesFlag_of_exec rfl⟩, Flag.exists_bit, ?_⟩
  refine ⟨?_, ?_, ?_, ?_, ?_, ?_, ?_, ?_, ?_, ?_, ?_, ?_, ?_, ?_, ?_, ?_⟩ <;> exact givesFlag_of_exec rfl

/-! ## Bits of I/O registers -/

/-- SBI and CBI answer the state after a write of the byte read with bit `b` replaced (R170, R171). -/
theorem exec_of_ioBitWrite {s u : State} {i : Instr} {p : IoAddr} {q : IoReg} {b : BitNo} {x : Bool} {v : Byte}
    (hi : exec i s = outcome (s.ioBitWrite p b x)) (hq : s.ioRegAt p = some q)
    (hv : ∀ n : BitNo, byteBit v n = if n = b then x else byteBit (s.ioRegRead q) n)
    (hu : s.ioRegWrite v q = some u) : exec i s = .next (u.advance 1) := by
  rw [hi, ioBitWrite_of_bits (ioRead_ok.mpr ⟨q, hq, rfl⟩) hv (ioWrite_ok.mpr ⟨q, hq, hu⟩), outcome_ok]

/-- Settles O42: what is left alone is what a write of the I/O register leaves alone, and PORTB and DDRB read as
written. -/
theorem portBitInstructions : Obligations.PortBitInstructions := by
  intro s p b q i x hform hq
  have hi : exec i s = outcome (s.ioBitWrite (lowIoAddr p) b x) := by
    rcases hform with ⟨rfl, rfl⟩ | ⟨rfl, rfl⟩ <;> rfl
  refine ⟨fun v u hv hu => ?any, fun hport => ?port⟩
  case any =>
    obtain ⟨hcfg, hregs, hpc, hsram, hflash, -⟩ := ioRegWrite_frame hu
    exact ⟨_, exec_of_ioBitWrite hi hq hv hu, rfl, sameRegsBut_nil_of_regs_eq hregs, sameMemory_of_same hsram hflash,
      pcPlus_congr hcfg hpc 1⟩
  case port =>
    have hbits := byteBit_setByteBit (s.ioRegRead q) b x
    rcases hport with rfl | rfl <;>
      exact ⟨_, exec_of_ioBitWrite hi hq hbits rfl, hbits, fun _ _ => rfl, fun _ _ => rfl, sameMemory_of_same rfl rfl,
        rfl, rfl⟩

/-! ## No-operand control -/

theorem exec_sleep (s : State) :
    exec .sleep s = .next { s.advance 1 with sleeping := s.sleeping || byteBit s.io.mcucr 5 } := rfl

/-- Settles O43: SE decides whether SLEEP is a NOP (60_exceptions.md R366). -/
theorem nopWdrSleep : Obligations.NopWdrSleep := by
  intro s
  refine ⟨⟨_, rfl, frameRegs_setPc s _, rfl⟩, ⟨_, rfl, frameRegs_setPc s _, rfl⟩, fun hse => ?disabled,
    fun hse => ?enabled⟩
  case disabled =>
    rw [exec_sleep, hse, Bool.or_false]
    exact ⟨_, rfl, frameRegs_setPc s _, rfl⟩
  case enabled =>
    rw [exec_sleep, hse, Bool.or_true]
    exact ⟨_, rfl, rfl, frameRegs_setPc s _, rfl⟩

end Sys2Proof.Machine
end

section
/-! SUPPORT. Carries and borrows as arithmetic, and the flags an arithmetic or logic instruction leaves
(42_arithmetic_logic.md R218, R219). -/

namespace Sys2Proof.Machine

/-! ## Carries and signed overflow -/

/-- The three bits that say whether a sum carries out of the place of value `m` (R219). -/
theorem carryOut_of_sum {m a b c r : Nat} (ha : a < 2 * m) (hb : b < 2 * m) (hc : c ≤ 1)
    (hr : r = (a + b + c) % (2 * m)) :
    (decide (m ≤ a) && decide (m ≤ b) || decide (m ≤ b) && !decide (m ≤ r) || !decide (m ≤ r) && decide (m ≤ a)) =
      decide (2 * m ≤ a + b + c) := by
  simp only [← Bool.decide_and, ← Bool.decide_or, ← decide_not, decide_eq_decide]
  rcases Nat.lt_or_ge (a + b + c) (2 * m) with hlt | hge
  · rw [Nat.mod_eq_of_lt hlt] at hr
    omega
  · rw [Nat.mod_eq_sub_mod hge, Nat.mod_eq_of_lt (by omega)] at hr
    omega

section
variable {a b r : Byte} {c : Bool}

/-- C of a sum (R219). -/
theorem carry_of_sum (hr : r.toNat = (a.toNat + b.toNat + c.toNat) % 256) :
    (byteBit a 7 && byteBit b 7 || byteBit b 7 && !byteBit r 7 || !byteBit r 7 && byteBit a 7) =
      decide (256 ≤ a.toNat + b.toNat + c.toNat) := by
  simp only [byteBit_at_seven]
  exact carryOut_of_sum a.isLt b.isLt c.toNat_le hr

/-- H of a sum: the same of the low nibbles (R219). -/
theorem halfCarry_of_sum (hr : r.toNat = (a.toNat + b.toNat + c.toNat) % 256) :
    (byteBit a 3 && byteBit b 3 || byteBit b 3 && !byteBit r 3 || !byteBit r 3 && byteBit a 3) =
      decide (16 ≤ a.toNat % 16 + b.toNat % 16 + c.toNat) := by
  simp only [byteBit_at_three]
  exact carryOut_of_sum (by omega) (by omega) c.toNat_le (by omega)

/-- V of a sum (R219). -/
theorem overflow_of_sum (hr : r.toNat = (a.toNat + b.toNat + c.toNat) % 256) :
    (byteBit a 7 && byteBit b 7 && !byteBit r 7 || !byteBit a 7 && !byteBit b 7 && byteBit r 7) =
      decide (a.toInt + b.toInt + c.toNat < -128 ∨ 127 < a.toInt + b.toInt + c.toNat) := by
  have hc := c.toNat_le
  simp only [byteBit_at_seven, ← Bool.decide_and, ← Bool.decide_or, ← decide_not, decide_eq_decide,
    BitVec.toInt_eq_toNat_cond]
  split_ifs <;> omega

end

/-! ## The numbers of a sum and of a difference -/

theorem toNat_sum (a b : Byte) (c : Bool) :
    (a + b + if c then 1 else 0).toNat = (a.toNat + b.toNat + c.toNat) % 256 := by
  cases c <;> simp

theorem toNat_difference (a b : Byte) (c : Bool) :
    ((a - b - if c then 1 else 0).toNat : Int) = (a.toNat - b.toNat - c.toNat : Int) % 256 := by
  cases c with
  | false =>
    change ((a - b - 0).toNat : Int) = (a.toNat - b.toNat - 0 : Int) % 256
    bv_omega
  | true =>
    change ((a - b - 1).toNat : Int) = (a.toNat - b.toNat - 1 : Int) % 256
    bv_omega

/-! ## Borrows

`d` is `a - b - c` exactly if `a` is `d + b + c`, so the flags of a difference are those of a sum whose result is
`a`. -/

section
variable {a b d : Byte} {c : Bool}

theorem sum_of_difference (hd : (d.toNat : Int) = (a.toNat - b.toNat - c.toNat : Int) % 256) :
    a.toNat = (d.toNat + b.toNat + c.toNat) % 256 := by
  omega

theorem carryOut_comm (x y z : Bool) : (!x && y || y && z || z && !x) = (z && y || y && !x || !x && z) := by
  cases x <;> cases y <;> cases z <;> rfl

theorem overflow_comm (x y z : Bool) : (x && !y && !z || !x && y && z) = (z && y && !x || !z && !y && x) := by
  cases x <;> cases y <;> cases z <;> rfl

/-- C of a difference (R219). -/
theorem borrow_of_difference (hd : (d.toNat : Int) = (a.toNat - b.toNat - c.toNat : Int) % 256) :
    (!byteBit a 7 && byteBit b 7 || byteBit b 7 && byteBit d 7 || byteBit d 7 && !byteBit a 7) =
      decide (a.toNat < b.toNat + c.toNat) := by
  rw [carryOut_comm, carry_of_sum (sum_of_difference hd), decide_eq_decide]
  omega

/-- H of a difference: the borrow of the low nibbles (R219). -/
theorem halfBorrow_of_difference (hd : (d.toNat : Int) = (a.toNat - b.toNat - c.toNat : Int) % 256) :
    (!byteBit a 3 && byteBit b 3 || byteBit b 3 && byteBit d 3 || byteBit d 3 && !byteBit a 3) =
      decide (a.toNat % 16 < b.toNat % 16 + c.toNat) := by
  rw [carryOut_comm, halfCarry_of_sum (sum_of_difference hd), decide_eq_decide]
  omega

/-- V of a difference (R219). -/
theorem overflow_of_difference (hd : (d.toNat : Int) = (a.toNat - b.toNat - c.toNat : Int) % 256) :
    (byteBit a 7 && !byteBit b 7 && !byteBit d 7 || !byteBit a 7 && byteBit b 7 && byteBit d 7) =
      decide (a.toInt - b.toInt - c.toNat < -128 ∨ 127 < a.toInt - b.toInt - c.toNat) := by
  rw [overflow_comm, overflow_of_sum (sum_of_difference hd), decide_eq_decide]
  simp only [BitVec.toInt_eq_toNat_cond]
  split_ifs <;> omega

end

/-! ## The flags of a state from its SREG -/

section
variable {t : State} {sreg a b r : Byte}

theorem sumFlags_of_sreg {c : Bool} (ht : t.sreg = addFlags sreg a b r)
    (hr : r.toNat = (a.toNat + b.toNat + c.toNat) % 256) : SumFlags t a b r c := by
  simp only [SumFlags, State.flag, ht, flagOf_addFlags, carry_of_sum hr, halfCarry_of_sum hr, overflow_of_sum hr,
    ← byteBit_at_seven, ← byte_beq_zero, and_self]

theorem diffFlags_of_sreg {c keepZ : Bool} (ht : t.sreg = subFlags sreg a b r keepZ)
    (hr : (r.toNat : Int) = (a.toNat - b.toNat - c.toNat : Int) % 256) :
    DiffFlags t a b r c (!keepZ || flagOf sreg .z) := by
  simp only [DiffFlags, State.flag, ht, flagOf_subFlags, borrow_of_difference hr, halfBorrow_of_difference hr,
    overflow_of_difference hr, ← byteBit_at_seven, ← byte_beq_zero, and_true, true_and]
  cases keepZ <;> simp

theorem resultFlags_of_logicFlags (ht : t.sreg = logicFlags sreg r) : ResultFlags t r false := by
  simp only [ResultFlags, State.flag, ht, flagOf_logicFlags, byteBit_at_seven, byte_beq_zero, Bool.xor_false, and_self]

theorem resultFlags_of_stepFlags {o : Byte} (ht : t.sreg = stepFlags sreg r o) : ResultFlags t r (r == o) := by
  simp only [ResultFlags, State.flag, ht, flagOf_stepFlags, byteBit_at_seven, byte_beq_zero, and_self]

end

/-- NEG's own formulas are SubFlags of `0 - a` (R234). -/
theorem negFlags_eq_subFlags (sreg : Byte) {a r : Byte} (hr : r = 0 - a) :
    negFlags sreg a r = subFlags sreg 0 a r false := by
  have hcarry : (r != 0) = (byteBit a 7 || byteBit r 7) := by
    rw [Bool.eq_iff_iff, bne_iff_ne, Bool.or_eq_true, byteBit_at_seven, byteBit_at_seven, decide_eq_true_eq,
      decide_eq_true_eq]
    bv_omega
  have hoverflow : (r == 0x80) = (byteBit a 7 && byteBit r 7) := by
    rw [Bool.eq_iff_iff, beq_iff_eq, Bool.and_eq_true, byteBit_at_seven, byteBit_at_seven, decide_eq_true_eq,
      decide_eq_true_eq]
    bv_omega
  have habsorb : ∀ x y : Bool, (!false && x || x && y || y && !false) = (y || x) := by decide
  apply sreg_ext
  intro f
  rw [flagOf_negFlags, flagOf_subFlags]
  simp only [byteBit_zero, habsorb, hcarry, hoverflow]
  cases f with
  | c => exact Bool.or_comm ..
  | _ => simp

/-! ## What the flag computations keep -/

section
variable (sreg a b r : Byte) {f : Flag}

theorem flagOf_addFlags_of_notMem (hf : f ∉ [.c, .z, .n, .v, .s, .h]) :
    flagOf (addFlags sreg a b r) f = flagOf sreg f := by
  rw [flagOf_addFlags]
  cases f with
  | t | i => rfl
  | _ => simp at hf

theorem flagOf_subFlags_of_notMem (keepZ : Bool) (hf : f ∉ [.c, .z, .n, .v, .s, .h]) :
    flagOf (subFlags sreg a b r keepZ) f = flagOf sreg f := by
  rw [flagOf_subFlags]
  cases f with
  | t | i => rfl
  | _ => simp at hf

theorem flagOf_logicFlags_of_notMem (hf : f ∉ [.v, .n, .z, .s]) : flagOf (logicFlags sreg r) f = flagOf sreg f := by
  rw [flagOf_logicFlags]
  cases f with
  | c | h | t | i => rfl
  | _ => simp at hf

theorem flagOf_stepFlags_of_notMem (o : Byte) (hf : f ∉ [.v, .n, .z, .s]) :
    flagOf (stepFlags sreg r o) f = flagOf sreg f := by
  rw [flagOf_stepFlags]
  cases f with
  | c | h | t | i => rfl
  | _ => simp at hf

end

theorem SameFlagsBut.mono {s t : State} {fs fs' : List Flag} (h : SameFlagsBut fs s t) (hsub : fs ⊆ fs') :
    SameFlagsBut fs' s t :=
  fun f hf => h f fun hmem => hf (hsub hmem)

/-- What two updates leave alone of the registers together. -/
theorem SameRegsBut.trans {s t u : State} {rs rs' : List Reg} (hst : SameRegsBut rs s t) (htu : SameRegsBut rs' t u) :
    SameRegsBut (rs ++ rs') s u := by
  intro j hj
  rw [List.mem_append, not_or] at hj
  obtain ⟨hrs, hrs'⟩ := hj
  exact (htu j hrs').trans (hst j hrs)

theorem writeResult_reg_self (s : State) (rd : Reg) (r sreg : Byte) : (s.writeResult rd r sreg).reg rd = r :=
  setReg_reg_self ..

theorem frameRegs_writeResult {s : State} {rd : Reg} {r sreg : Byte} {fs : List Flag}
    (hkeep : ∀ f, f ∉ fs → flagOf sreg f = s.flag f) : FrameRegs [rd] fs s (s.writeResult rd r sreg) :=
  (frameRegs_setFlags_advance (s := s.setReg rd r) hkeep 1).of_setReg

theorem FrameRegs.of_setPair {s t : State} {i : Reg} {w : Word} {fs : List Flag}
    (h : FrameRegs [] fs (s.setPair i w) t) : FrameRegs [i, pairHigh i] fs s t := by
  obtain ⟨hregs, hrest⟩ := h
  obtain ⟨hpair, -⟩ := frameStore_setPair s i w
  exact ⟨hpair.trans hregs, hrest⟩

end Sys2Proof.Machine
end

section
/-! The statements about the arithmetic and logic instructions (42_arithmetic_logic.md R218 to R240;
41_bit_and_bit_test.md R172, R173). -/

namespace Sys2Proof.Machine

/-! ## The flag helpers -/

/-- Settles O37: the formulas are what the flag functions compute, and the readings are theirs as carries and borrows. -/
theorem flagHelpers : Obligations.FlagHelpers := by
  rintro s _ _ _ a b r d c z hr rfl hd rfl rfl
  have hsum := hr ▸ toNat_sum a b c
  have hdiff := hd ▸ toNat_difference a b c
  refine ⟨⟨flagOf_addFlags .., flagOf_addFlags .., flagOf_addFlags .., sumFlags_of_sreg rfl hsum⟩,
    ⟨flagOf_subFlags .., flagOf_subFlags .., flagOf_subFlags .., diffFlags_of_sreg rfl hdiff⟩,
    resultFlags_of_logicFlags rfl, fun f hf => flagOf_logicFlags_of_notMem _ _ hf, ?sum, ?diff⟩
  case sum =>
    have hkeep : SameFlagsBut [.c, .z, .n, .v, .s, .h] s (s.setFlags (addFlags s.sreg a b r)) :=
      fun f hf => flagOf_addFlags_of_notMem _ _ _ _ hf
    exact hkeep.mono (by decide)
  case diff =>
    have hkeep : SameFlagsBut [.c, .z, .n, .v, .s, .h] s (s.setFlags (subFlags s.sreg a b d z)) :=
      fun f hf => flagOf_subFlags_of_notMem _ _ _ _ _ hf
    exact hkeep.mono (by decide)

/-! ## Sums and differences of bytes -/

/-- `i` adds `b` and the carry `c` to `rd`, sets the six arithmetic flags, and goes on by one word: each conjunct of
Obligations.Additions, for any such instruction. -/
def GivesSum (i : Instr) (rd : Reg) (b : Byte) (c : Bool) (s : State) : Prop :=
  ∃ t, exec i s = .next t ∧ (t.reg rd).toNat = ((s.reg rd).toNat + b.toNat + c.toNat) % 256 ∧
    SumFlags t (s.reg rd) b (t.reg rd) c ∧ FrameRegs [rd] [.c, .z, .n, .v, .s, .h] s t ∧ t.pc = s.pcPlus 1

/-- `i` subtracts `b` and the borrow `c` from `rd`, sets the six arithmetic flags, Z only if `z`, and goes on by one
word: the conclusion of Obligations.Subtractions. -/
def GivesDifference (i : Instr) (rd : Reg) (b : Byte) (c z : Bool) (s : State) : Prop :=
  ∃ t, exec i s = .next t ∧ ((t.reg rd).toNat : Int) = ((s.reg rd).toNat - b.toNat - c.toNat : Int) % 256 ∧
    DiffFlags t (s.reg rd) b (t.reg rd) c z ∧ FrameRegs [rd] [.c, .z, .n, .v, .s, .h] s t ∧ t.pc = s.pcPlus 1

section
variable {s : State} {i : Instr} {rd : Reg} {b : Byte} {c : Bool}

theorem givesSum_of_exec (hi : exec i s = .next (s.addWith rd b (if c then 1 else 0))) : GivesSum i rd b c s := by
  have hres : (s.addWith rd b (if c then 1 else 0)).reg rd = s.reg rd + b + if c then 1 else 0 :=
    writeResult_reg_self ..
  refine ⟨_, hi, ?value, ?flags, frameRegs_writeResult fun f hf => flagOf_addFlags_of_notMem _ _ _ _ hf, rfl⟩
  case value => rw [hres, toNat_sum]
  case flags =>
    rw [hres]
    exact sumFlags_of_sreg rfl (toNat_sum ..)

theorem givesDifference_of_exec {keepZ : Bool} (hi : exec i s = .next (s.subWith rd b (if c then 1 else 0) keepZ)) :
    GivesDifference i rd b c (!keepZ || s.flag .z) s := by
  have hres : (s.subWith rd b (if c then 1 else 0) keepZ).reg rd = s.reg rd - b - if c then 1 else 0 :=
    writeResult_reg_self ..
  refine ⟨_, hi, ?value, ?flags, frameRegs_writeResult fun f hf => flagOf_subFlags_of_notMem _ _ _ _ _ hf, rfl⟩
  case value => rw [hres, toNat_difference]
  case flags =>
    rw [hres]
    exact diffFlags_of_sreg rfl (toNat_difference ..)

end

theorem givesSum_add (s : State) (rd rr : Reg) : GivesSum (.add rd rr) rd (s.reg rr) false s :=
  givesSum_of_exec rfl

theorem givesSum_adc (s : State) (rd rr : Reg) : GivesSum (.adc rd rr) rd (s.reg rr) (s.flag .c) s :=
  givesSum_of_exec rfl

theorem givesDifference_sub (s : State) (rd rr : Reg) : GivesDifference (.sub rd rr) rd (s.reg rr) false true s :=
  givesDifference_of_exec (keepZ := false) rfl

theorem givesDifference_subi (s : State) (rd : Reg) (k : Byte) : GivesDifference (.subi rd k) rd k false true s :=
  givesDifference_of_exec (keepZ := false) rfl

theorem givesDifference_sbc (s : State) (rd rr : Reg) :
    GivesDifference (.sbc rd rr) rd (s.reg rr) (s.flag .c) (s.flag .z) s :=
  givesDifference_of_exec (keepZ := true) rfl

theorem givesDifference_sbci (s : State) (rd : Reg) (k : Byte) :
    GivesDifference (.sbci rd k) rd k (s.flag .c) (s.flag .z) s :=
  givesDifference_of_exec (keepZ := true) rfl

/-- Settles O30: ADD is the sum without a carry. -/
theorem additions : Obligations.Additions :=
  fun s rd rr => ⟨givesSum_add s rd rr, givesSum_adc s rd rr⟩

/-- Settles O31, form by form. -/
theorem subtractions : Obligations.Subtractions := by
  intro s rd rr k b c z i hform
  rcases hform with ⟨rfl, rfl, rfl, rfl⟩ | ⟨rfl, rfl, rfl, rfl⟩ | ⟨rfl, rfl, rfl, rfl⟩ | ⟨rfl, rfl, rfl, rfl⟩
  · exact givesDifference_sub s rd rr
  · exact givesDifference_subi s rd b
  · exact givesDifference_sbc s rd rr
  · exact givesDifference_sbci s rd b

/-! ## Numbers of two bytes -/

theorem toNat_decide (p : Prop) [Decidable p] : (decide p).toNat = if p then 1 else 0 := Bool.cond_decide ..

section
variable {s : State} {dl dh rl rh : Reg} {a b : Nat}

/-- The carry of the low bytes is the one ADC adds to the high ones (R240). -/
theorem add_then_adc (hd : dl ≠ dh) (hr : dl ≠ rh) (ha : a = (s.reg dh).toNat * 256 + (s.reg dl).toNat)
    (hb : b = (s.reg rh).toNat * 256 + (s.reg rl).toNat) :
    ∃ t u, exec (.add dl rl) s = .next t ∧ exec (.adc dh rh) t = .next u ∧
      (u.reg dh).toNat * 256 + (u.reg dl).toNat = (a + b) % 0x10000 ∧ u.flag .c = decide (0x10000 ≤ a + b) ∧
      SameRegsBut [dl, dh] s u := by
  obtain ⟨t, hexec, hlow, ⟨hcarry, -⟩, ⟨hregs, -⟩, -⟩ := givesSum_add s dl rl
  obtain ⟨u, hexec', hhigh, ⟨hcarry', -⟩, ⟨hregs', -⟩, -⟩ := givesSum_adc t dh rh
  have hdl : u.reg dl = t.reg dl := hregs' dl (mt List.mem_singleton.mp hd)
  have hdh : t.reg dh = s.reg dh := hregs dh (mt List.mem_singleton.mp hd.symm)
  have hrh : t.reg rh = s.reg rh := hregs rh (mt List.mem_singleton.mp hr.symm)
  rw [hdh, hrh, hcarry, toNat_decide] at hhigh hcarry'
  rw [Bool.toNat_false] at hlow hhigh hcarry'
  refine ⟨t, u, hexec, hexec', ?sum, ?carry, hregs.trans hregs'⟩
  case sum =>
    rw [hdl]
    split_ifs at hhigh <;> omega
  case carry =>
    rw [hcarry', decide_eq_decide]
    split_ifs <;> omega

/-- The borrow of the low bytes is the one SBC subtracts from the high ones, and Z is set if both differences are zero
(R225, R240). -/
theorem sub_then_sbc (hd : dl ≠ dh) (hr : dl ≠ rh) (ha : a = (s.reg dh).toNat * 256 + (s.reg dl).toNat)
    (hb : b = (s.reg rh).toNat * 256 + (s.reg rl).toNat) :
    ∃ t u, exec (.sub dl rl) s = .next t ∧ exec (.sbc dh rh) t = .next u ∧
      (((u.reg dh).toNat * 256 + (u.reg dl).toNat : Nat) : Int) = ((a : Int) - b) % 0x10000 ∧
      u.flag .c = decide (a < b) ∧ u.flag .z = decide (a = b) ∧ SameRegsBut [dl, dh] s u := by
  obtain ⟨t, hexec, hlow, ⟨hborrow, -, -, -, hzero, -⟩, ⟨hregs, -⟩, -⟩ := givesDifference_sub s dl rl
  obtain ⟨u, hexec', hhigh, ⟨hborrow', -, -, -, hzero', -⟩, ⟨hregs', -⟩, -⟩ := givesDifference_sbc t dh rh
  have hdl : u.reg dl = t.reg dl := hregs' dl (mt List.mem_singleton.mp hd)
  have hdh : t.reg dh = s.reg dh := hregs dh (mt List.mem_singleton.mp hd.symm)
  have hrh : t.reg rh = s.reg rh := hregs rh (mt List.mem_singleton.mp hr.symm)
  rw [hdh, hrh, hborrow, toNat_decide] at hhigh hborrow'
  rw [Bool.toNat_false] at hlow hhigh hborrow'
  have hvalue : (((u.reg dh).toNat * 256 + (u.reg dl).toNat : Nat) : Int) = ((a : Int) - b) % 0x10000 := by
    rw [hdl]
    split_ifs at hhigh <;> omega
  refine ⟨t, u, hexec, hexec', hvalue, ?borrow, ?zero, hregs.trans hregs'⟩
  case borrow =>
    rw [hborrow', decide_eq_decide]
    split_ifs <;> omega
  case zero =>
    rw [hzero', hzero, Bool.and_true, ← hdl, ← Bool.decide_and, decide_eq_decide]
    omega

end

/-- Settles O38: the high bytes are read after the low ones are written, which touches neither (R240). -/
theorem multiByteArithmetic : Obligations.MultiByteArithmetic :=
  fun _ _ _ _ _ _ _ hd hr ha hb => ⟨add_then_adc hd hr ha hb, sub_then_sbc hd hr ha hb⟩

/-! ## Words -/

/-- The sign of a word. -/
theorem getLsbD_fifteen (w : Word) : w.getLsbD 15 = decide (0x8000 ≤ w.toNat) :=
  BitVec.msb_eq_decide w

theorem word_beq_zero (w : Word) : (w == 0) = decide (w.toNat = 0) := by
  rw [beq_eq_decide, decide_eq_decide, BitVec.toNat_eq]
  rfl

section
variable (sreg : Byte) (w r : Word) {f : Flag}

theorem flagOf_adiwFlags_of_notMem (hf : f ∉ [.c, .z, .n, .v, .s]) :
    flagOf (adiwFlags sreg w r) f = flagOf sreg f := by
  rw [flagOf_adiwFlags]
  cases f with
  | h | t | i => rfl
  | _ => simp at hf

theorem flagOf_sbiwFlags_of_notMem (hf : f ∉ [.c, .z, .n, .v, .s]) :
    flagOf (sbiwFlags sreg w r) f = flagOf sreg f := by
  rw [flagOf_sbiwFlags]
  cases f with
  | h | t | i => rfl
  | _ => simp at hf

end

section
variable {w r : Word} {k : Nat}

theorem word_carry (hk : k < 64) (hr : r.toNat = (w.toNat + k) % 0x10000) :
    (!r.getLsbD 15 && w.getLsbD 15) = decide (0x10000 ≤ w.toNat + k) := by
  simp only [getLsbD_fifteen, ← decide_not, ← Bool.decide_and, decide_eq_decide]
  omega

theorem word_overflow_of_sum (hk : k < 64) (hr : r.toNat = (w.toNat + k) % 0x10000) :
    (!w.getLsbD 15 && r.getLsbD 15) = decide (0x7FFF < w.toInt + k) := by
  simp only [getLsbD_fifteen, ← decide_not, ← Bool.decide_and, decide_eq_decide, BitVec.toInt_eq_toNat_cond]
  split_ifs <;> omega

theorem word_borrow (hk : k < 64) (hr : (r.toNat : Int) = (w.toNat - k : Int) % 0x10000) :
    (r.getLsbD 15 && !w.getLsbD 15) = decide (w.toNat < k) := by
  simp only [getLsbD_fifteen, ← decide_not, ← Bool.decide_and, decide_eq_decide]
  omega

theorem word_overflow_of_difference (hk : k < 64) (hr : (r.toNat : Int) = (w.toNat - k : Int) % 0x10000) :
    (w.getLsbD 15 && !r.getLsbD 15) = decide (w.toInt - k < -0x8000) := by
  simp only [getLsbD_fifteen, ← decide_not, ← Bool.decide_and, decide_eq_decide, BitVec.toInt_eq_toNat_cond]
  split_ifs <;> omega

end

/-- A pair and SREG written: what the pair then reads as, and what is left alone. -/
theorem pair_and_frame_of_setPair_setFlags {s t : State} {rd : Reg} {r : Word} {sreg : Byte} {fs : List Flag}
    (ht : t = ((s.setPair rd r).setFlags sreg).advance 1) (hkeep : ∀ f, f ∉ fs → flagOf sreg f = s.flag f) :
    t.pair rd = r ∧ FrameRegs [rd, pairHigh rd] fs s t := by
  subst ht
  exact ⟨setPair_pair s rd r, (frameRegs_setFlags_advance (s := s.setPair rd r) hkeep 1).of_setPair⟩

/-- Settles O34: the flags are those of a result that is the sum, or the difference, modulo $10000. -/
theorem wordArithmetic : Obligations.WordArithmetic := by
  rintro s rd k w rfl
  refine ⟨⟨_, rfl, ?adiw⟩, ⟨_, rfl, ?sbiw⟩⟩
  case adiw =>
    have hr : (s.pair rd + k.setWidth 16).toNat = ((s.pair rd).toNat + k.toNat) % 0x10000 := by bv_omega
    obtain ⟨hpair, hframe⟩ := pair_and_frame_of_setPair_setFlags rfl
      fun f hf => flagOf_adiwFlags_of_notMem s.sreg (s.pair rd) (s.pair rd + k.setWidth 16) hf
    rw [hpair]
    refine ⟨hr, ?c, ?v, ?n, ?z, ?s, hframe, rfl⟩
    case c => exact (flagOf_adiwFlags ..).trans (word_carry k.isLt hr)
    case v => exact (flagOf_adiwFlags ..).trans (word_overflow_of_sum k.isLt hr)
    case n => exact (flagOf_adiwFlags ..).trans (getLsbD_fifteen _)
    case z => exact (flagOf_adiwFlags ..).trans (word_beq_zero _)
    case s => simp only [advance_flag, setFlags_flag, flagOf_adiwFlags]
  case sbiw =>
    have hr : ((s.pair rd - k.setWidth 16).toNat : Int) = ((s.pair rd).toNat - k.toNat : Int) % 0x10000 := by bv_omega
    obtain ⟨hpair, hframe⟩ := pair_and_frame_of_setPair_setFlags rfl
      fun f hf => flagOf_sbiwFlags_of_notMem s.sreg (s.pair rd) (s.pair rd - k.setWidth 16) hf
    rw [hpair]
    refine ⟨hr, ?c, ?v, ?n, ?z, ?s, hframe, rfl⟩
    case c => exact (flagOf_sbiwFlags ..).trans (word_borrow k.isLt hr)
    case v => exact (flagOf_sbiwFlags ..).trans (word_overflow_of_difference k.isLt hr)
    case n => exact (flagOf_sbiwFlags ..).trans (getLsbD_fifteen _)
    case z => exact (flagOf_sbiwFlags ..).trans (word_beq_zero _)
    case s => simp only [advance_flag, setFlags_flag, flagOf_sbiwFlags]

/-! ## Logic, and one operand -/

theorem givesByte_of_logicFlags {s : State} {i : Instr} {rd : Reg} {r : Byte}
    (hi : exec i s = .next (s.logicResult rd r)) : GivesByte i rd r false [] s :=
  givesByte_of_exec hi (resultFlags_of_logicFlags rfl) (fun _ hc => absurd hc List.not_mem_nil)
    fun _ hf => flagOf_logicFlags_of_notMem _ _ hf

theorem givesByte_of_stepFlags {s : State} {i : Instr} {rd : Reg} {r o : Byte}
    (hi : exec i s = .next (s.writeResult rd r (stepFlags s.sreg r o))) : GivesByte i rd r (r == o) [] s :=
  givesByte_of_exec hi (resultFlags_of_stepFlags rfl) (fun _ hc => absurd hc List.not_mem_nil)
    fun _ hf => flagOf_stepFlags_of_notMem _ _ _ hf

/-- Settles O35: CBR is ANDI of the complement, and TST is AND of a register with itself. -/
theorem logicOperations : Obligations.LogicOperations := by
  intro s rd rr k
  refine ⟨givesByte_of_logicFlags rfl, givesByte_of_logicFlags rfl, givesByte_of_logicFlags rfl,
    givesByte_of_logicFlags rfl, givesByte_of_logicFlags rfl, givesByte_of_logicFlags rfl,
    givesByte_of_logicFlags (exec_cbr rd k s), givesByte_of_logicFlags ?tst⟩
  case tst =>
    have hand : exec (.and rd rd) s = .next (s.logicResult rd (s.reg rd &&& s.reg rd)) := rfl
    rw [exec_tst, hand, BitVec.and_self]

/-- COM's flags are those of the logic group and C set (R233). -/
theorem givesByte_com (s : State) (rd : Reg) : GivesByte (.com rd) rd (0xFF - s.reg rd) false [(.c, true)] s := by
  refine givesByte_of_exec rfl ?_ ?_ fun f hf => ?_
  · simp only [ResultFlags, setFlags_flag, flagOf_comFlags, flagOf_logicFlags, reduceCtorEq, if_false, byteBit_at_seven,
      byte_beq_zero, Bool.xor_false, and_self]
  · simp [flagOf_comFlags]
  · obtain ⟨hlogic, hc⟩ := not_or.mp (mt List.mem_append.mpr hf)
    rw [flagOf_comFlags, if_neg (List.ne_of_not_mem_cons hc)]
    exact flagOf_logicFlags_of_notMem _ _ hlogic

/-- NEG is a subtraction from 0 (R234). -/
theorem exec_neg (s : State) (rd : Reg) :
    exec (.neg rd) s = .next (s.writeResult rd (0 - s.reg rd) (subFlags s.sreg 0 (s.reg rd) (0 - s.reg rd) false)) := by
  rw [← negFlags_eq_subFlags s.sreg rfl]
  rfl

/-- Settles O36: a result of $80 comes of $7F by INC, and of $7F of $80 by DEC. -/
theorem oneOperandArithmetic : Obligations.OneOperandArithmetic := by
  rintro s rd v rfl
  refine ⟨givesByte_com s rd, ?neg, ?inc, ?dec, ?clr⟩
  case neg =>
    have hvalue : (0 - s.reg rd).toNat = (256 - (s.reg rd).toNat) % 256 := by bv_omega
    have hdiff : ((0 - s.reg rd).toNat : Int) = ((0 : Byte).toNat - (s.reg rd).toNat - false.toNat : Int) % 256 := by
      rw [Bool.toNat_false]
      bv_omega
    have hframe := frameRegs_writeResult (s := s) (rd := rd) (r := 0 - s.reg rd)
      fun f hf => flagOf_subFlags_of_notMem s.sreg 0 (s.reg rd) (0 - s.reg rd) false hf
    refine ⟨_, exec_neg s rd, ?_, ?_, hframe, rfl⟩
    · rw [writeResult_reg_self, hvalue]
    · rw [writeResult_reg_self]
      exact diffFlags_of_sreg (keepZ := false) rfl hdiff
  case inc =>
    have hv : (s.reg rd + 1 == 0x80) = decide (s.reg rd = 0x7F) := by
      rw [beq_eq_decide, decide_eq_decide]
      bv_omega
    rw [← hv]
    exact givesByte_of_stepFlags rfl
  case dec =>
    have hv : (s.reg rd - 1 == 0x7F) = decide (s.reg rd = 0x80) := by
      rw [beq_eq_decide, decide_eq_decide]
      bv_omega
    rw [← hv]
    exact givesByte_of_stepFlags rfl
  case clr =>
    refine givesByte_of_logicFlags ?_
    rw [State.logicResult, ← clrFlags_eq_logicFlags]
    rfl

end Sys2Proof.Machine
end

section
/-! SUPPORT. Targets modulo `2^PCW`, the flags of a comparison, and the stack: what a push and a pop of an address do
wherever it lies, and with the stack in the SRAM (10_state.md R29, R30, R32, R33; 42_arithmetic_logic.md R219). -/

namespace Sys2Proof.Machine

/-! ## Targets -/

/-- The sum modulo 2^16 is the sum modulo `2^PCW`, PCW being at most 16 (10_state.md R29). -/
theorem toNat_wrapTo_ofInt {n : Nat} (hn : n ≤ 16) (d : Int) :
    ((wrapTo n (BitVec.ofInt 16 d)).toNat : Int) = d % 2 ^ n := by
  have hdvd : (2 : Int) ^ n ∣ 2 ^ 16 := pow_dvd_pow 2 hn
  rw [toNat_wrapTo, BitVec.toNat_ofInt]
  push_cast
  rw [Int.toNat_of_nonneg (Int.emod_nonneg _ (by decide))]
  exact Int.emod_emod_of_dvd _ hdvd

theorem ofInt_toNat_add (w : Word) (d : Int) : BitVec.ofInt 16 (w.toNat + d) = w + BitVec.ofInt 16 d := by
  rw [BitVec.ofInt_add, BitVec.ofInt_natCast, BitVec.ofNat_toNat, BitVec.setWidth_eq]

/-- A sign-extended offset is its number (30_encoding.md R108). -/
theorem relTarget_signExtend (s : State) {n : Nat} (k : BitVec n) :
    s.relTarget (k.signExtend 16) = s.pc + BitVec.ofInt 16 (1 + k.toInt) := by
  rw [State.relTarget, BitVec.ofInt_add, ← BitVec.add_assoc]
  rfl

theorem goesBy_relTarget {s : State} (hp : s.cfg.pcw ≤ 16) {n : Nat} (k : BitVec n) :
    GoesBy s (s.setPc (s.relTarget (k.signExtend 16))) (1 + k.toInt) := by
  rw [relTarget_signExtend]
  exact goesBy_setPc hp _

theorem branchesIf_of_exec {s : State} {i : Instr} {c : Bool} {k : BitVec 7} (hp : s.cfg.pcw ≤ 16)
    (hi : exec i s = .next (s.branchIf c k)) : BranchesIf i c k s := by
  cases c with
  | true => exact ⟨_, hi, frameRegs_setPc s _, goesBy_relTarget hp k⟩
  | false => exact ⟨_, hi, frameRegs_setPc s _, goesBy_advance hp⟩

/-! ## Comparisons -/

section
variable {s : State} {a b r : Byte} {c keepZ : Bool}

/-- The flags of a comparison are those of the difference, which is not written (43_branch.md R267 to R269). -/
theorem diffFlags_compare (hr : (r.toNat : Int) = (a.toNat - b.toNat - c.toNat : Int) % 256) :
    DiffFlags (s.compare a b (if c then 1 else 0) keepZ) a b r c (!keepZ || s.flag .z) := by
  obtain rfl : r = a - b - if c then 1 else 0 :=
    BitVec.eq_of_toNat_eq (Int.ofNat_inj.mp (hr.trans (toNat_difference a b c).symm))
  exact diffFlags_of_sreg rfl hr

theorem frameRegs_compare (s : State) (a b c : Byte) (keepZ : Bool) :
    FrameRegs [] [.c, .z, .n, .v, .s, .h] s (s.compare a b c keepZ) :=
  frameRegs_setFlags_advance (fun _ hf => flagOf_subFlags_of_notMem _ _ _ _ _ hf) 1

end

section
variable {t : State} {a b r : Byte} (h : DiffFlags t a b r false true)
include h

theorem DiffFlags.flag_c_eq : t.flag .c = decide (a.toNat < b.toNat) := by
  obtain ⟨hc, -⟩ := h
  exact hc

variable (hr : (r.toNat : Int) = (a.toNat - b.toNat : Int) % 256)
include hr

theorem DiffFlags.flag_z_eq : t.flag .z = decide (a = b) := by
  obtain ⟨-, -, -, -, hz, -⟩ := h
  rw [hz, Bool.and_true, decide_eq_decide, BitVec.toNat_eq]
  omega

/-- S, the sign of the difference corrected for overflow, tells the signed order (43_branch.md R284, R285). -/
theorem DiffFlags.flag_s_eq : t.flag .s = decide (a.toInt < b.toInt) := by
  obtain ⟨-, -, hv, hn, -, hs⟩ := h
  rw [hs, hn, hv, Bool.eq_iff_iff, Bool.xor_iff_ne, ne_eq, decide_eq_decide, decide_eq_true_iff, Bool.toNat_false]
  simp only [BitVec.toInt_eq_toNat_cond]
  split_ifs <;> omega

end

/-! ## Frames -/

theorem SameFlagsBut.trans {s t u : State} {fs : List Flag} (hst : SameFlagsBut fs s t) (htu : SameFlagsBut fs t u) :
    SameFlagsBut fs s u :=
  fun f hf => (htu f hf).trans (hst f hf)

theorem SameMemoryBut.trans_sameMemory {s t u : State} {as : List Word} (hst : SameMemoryBut as s t)
    (htu : SameMemory t u) : SameMemoryBut as s u := by
  obtain ⟨hsram, hflash⟩ := hst
  obtain ⟨hsram', hflash'⟩ := htu
  exact ⟨fun a ha => (hsram' a).trans (hsram a ha), fun b => (hflash' b).trans (hflash b)⟩

theorem SameMemoryBut.sameMemory {s t : State} (h : SameMemoryBut [] s t) : SameMemory s t := by
  obtain ⟨hsram, hflash⟩ := h
  exact ⟨fun a => hsram a fun _ hb => absurd hb List.not_mem_nil, hflash⟩

theorem frameStack_setPc (s : State) (t : Word) : FrameStack [] [] s (s.setPc t) :=
  ⟨fun _ _ => rfl, fun _ _ => rfl, ⟨fun _ _ => rfl, fun _ => rfl⟩, ⟨rfl, rfl, rfl, rfl, rfl, rfl, rfl⟩, rfl⟩

theorem frameStack_setSp (s : State) (v : Word) : FrameStack [] [] s (s.setSp v) :=
  ⟨fun _ _ => rfl, fun _ _ => rfl, ⟨fun _ _ => rfl, fun _ => rfl⟩, ⟨rfl, rfl, rfl, rfl, rfl, rfl, rfl⟩, rfl⟩

/-! ## Pushes and pops of an address -/

/-- What follows a push of an address, by what it does with a fault of the push and with the state it leaves. -/
theorem pushesThen_of_pushPc {s : State} {ret : Word} {e : Except Fault State} {p : State → State → Prop}
    (herr : ∀ f, s.pushPc ret = .error f → e = .error f)
    (hok : ∀ x, s.pushPc ret = .ok x → ∃ t, e = .ok t ∧ p x t) : PushesThen (outcome e) ret s p := by
  rw [PushesThen, ← loByte_eq_extractLsb', ← hiByte_eq_extractLsb']
  refine ⟨fun f hf => ?first, ?rest⟩
  case first => exact outcome_fault.mpr (herr f (pushPc_error.mpr (.inl (push8_error.mpr hf))))
  case rest =>
    rintro v w hv rfl
    have hlow : s.push8 (loByte ret) = .ok (v.setSp (v.sp - 1)) := push8_ok.mpr ⟨v, hv, rfl⟩
    refine ⟨fun f hf => ?second, fun x hx => ?pushed⟩
    case second => exact outcome_fault.mpr (herr f (pushPc_error.mpr (.inr ⟨_, hlow, push8_error.mpr hf⟩)))
    case pushed =>
      obtain ⟨t, ht, hp⟩ := hok _ (pushPc_ok.mpr ⟨_, hlow, push8_ok.mpr ⟨x, hx, rfl⟩⟩)
      exact ⟨t, outcome_next.mpr ht, hp⟩

/-- What follows a pop of an address, by what it does with a fault of the pop and with the word and state it gives. -/
theorem popsThen_of_popPc {s : State} {e : Except Fault State} {p : Nat → State → State → Prop}
    (herr : ∀ f, s.popPc = .error f → e = .error f)
    (hok : ∀ a w, s.popPc = .ok (a, w) → ∃ t, e = .ok t ∧ p a.toNat w t) : PopsThen (outcome e) s p := by
  rintro u w rfl rfl
  refine ⟨fun f hf => ?first, fun h hh => ⟨fun f hf => ?second, fun l hl => ?popped⟩⟩
  case first => exact outcome_fault.mpr (herr f (popPc_error.mpr (.inl (pop8_error.mpr hf))))
  case second =>
    exact outcome_fault.mpr (herr f (popPc_error.mpr (.inr ⟨h, _, pop8_ok.mpr ⟨rfl, hh⟩, pop8_error.mpr hf⟩)))
  case popped =>
    obtain ⟨t, ht, hp⟩ := hok (joinBytes h l) _
      (popPc_ok.mpr ⟨h, _, l, pop8_ok.mpr ⟨rfl, hh⟩, pop8_ok.mpr ⟨rfl, hl⟩, rfl⟩)
    rw [toNat_joinBytes] at hp
    exact ⟨t, outcome_next.mpr ht, hp⟩

/-- A pop of an address moves SP and nothing else. -/
theorem popPc_frameStack {s w : State} {a : Word} (h : s.popPc = .ok (a, w)) : FrameStack [] [] s w := by
  obtain ⟨_, _, _, hhigh, hlow, -⟩ := popPc_ok.mp h
  obtain ⟨rfl, -⟩ := pop8_ok.mp hhigh
  obtain ⟨rfl, -⟩ := pop8_ok.mp hlow
  exact (frameStack_setSp ..).trans (frameStack_setSp ..)

/-! ## The stack in the SRAM -/

theorem wrapTo_of_lt {n : Nat} {w : Word} (h : w.toNat < 2 ^ n) : wrapTo n w = w :=
  BitVec.eq_of_toNat_eq (by rw [toNat_wrapTo, Nat.mod_eq_of_lt h])

/-- Steps of a register of `n` bits add up, whether or not `n` is above the 16 of a word. -/
theorem wrapTo_wrapTo_add (n : Nat) (w v : Word) : wrapTo n (wrapTo n w + v) = wrapTo n (w + v) := by
  rcases Nat.le_total n 16 with hn | hn
  · have hdvd : 2 ^ n ∣ 2 ^ 16 := pow_dvd_pow 2 hn
    apply BitVec.eq_of_toNat_eq
    rw [toNat_wrapTo, toNat_wrapTo, BitVec.toNat_add, BitVec.toNat_add, toNat_wrapTo, Nat.mod_mod_of_dvd _ hdvd,
      Nat.mod_mod_of_dvd _ hdvd, Nat.mod_add_mod]
  · rw [wrapTo_of_lt (w := w) (w.isLt.trans_le (Nat.pow_le_pow_right (by decide) hn))]

/-- The state with a word pushed onto a stack that lies in the SRAM: the low byte at SP, the high byte below it
(10_state.md R33). -/
def State.pushedToSram (s : State) (w : Word) : State :=
  ((s.setSram s.sp (loByte w)).setSram s.spBelow (hiByte w)).setSp (s.sp - 2)

theorem pushPc_of_sramAt {s : State} (hsp : s.sramAt s.sp = true) (hbelow : s.sramAt s.spBelow = true) (w : Word) :
    s.pushPc w = .ok (s.pushedToSram w) := by
  have hlow : s.push8 (loByte w) = .ok ((s.setSram s.sp (loByte w)).setSp (s.sp - 1)) :=
    push8_ok.mpr ⟨_, memWrite_of_sramAt hsp _, rfl⟩
  have hsp' : wrapTo s.cfg.spw (s.spBelow - 1) = wrapTo s.cfg.spw (s.sp - 2) := by
    rw [State.spBelow, BitVec.sub_eq_add_neg, wrapTo_wrapTo_add, BitVec.sub_eq_add_neg, BitVec.add_assoc,
      BitVec.sub_eq_add_neg]
    rfl
  have hhigh : ((s.setSram s.sp (loByte w)).setSp (s.sp - 1)).push8 (hiByte w) = .ok (s.pushedToSram w) := by
    refine push8_ok.mpr ⟨_, memWrite_of_sramAt (s := (s.setSram s.sp (loByte w)).setSp (s.sp - 1)) hbelow _, ?_⟩
    exact congrArg (fun v => { (s.setSram s.sp (loByte w)).setSram s.spBelow (hiByte w) with sp := v }) hsp'
  exact pushPc_ok.mpr ⟨_, hlow, hhigh⟩

theorem pushedToSram_sramByte_spBelow (s : State) (w : Word) :
    (s.pushedToSram w).sramByte s.spBelow.toNat = some (hiByte w) := by
  simp [State.pushedToSram]

/-- SP is not 0 in the SRAM, so the byte below it is another. -/
theorem pushedToSram_sramByte_sp {s : State} (hsp : s.sramAt s.sp = true) (w : Word) :
    (s.pushedToSram w).sramByte s.sp.toNat = some (loByte w) := by
  have hone : (1 : Word).toNat = 1 := rfl
  have hbelow : s.spBelow.toNat ≤ (s.sp - 1).toNat := by
    rw [State.spBelow, toNat_wrapTo]
    exact Nat.mod_le ..
  have hne : s.sp.toNat ≠ s.spBelow.toNat := by
    obtain ⟨hlow, -⟩ := sramAt_iff.mp hsp
    rw [BitVec.toNat_sub, hone] at hbelow
    omega
  simp [State.pushedToSram, hne]

theorem frameStack_pushedToSram (s : State) (w : Word) : FrameStack [] [s.sp, s.spBelow] s (s.pushedToSram w) := by
  obtain ⟨hstores, -⟩ := frameStore_iff.mp
    ((frameStore_setSram s s.sp (loByte w)).trans (frameStore_setSram _ s.spBelow (hiByte w)))
  exact hstores.trans (frameStack_setSp ..)

/-- A pop takes back the word pushed, and SP with it, in any state with SP and the two bytes as the push left them. -/
theorem popPc_of_pushed {s t : State} (hs : s.wf = true) (hsp : s.sramAt s.sp = true)
    (hbelow : s.sramAt s.spBelow = true) {w : Word} (hcfg : t.cfg = s.cfg)
    (hlow : t.sramByte s.sp.toNat = some (loByte w)) (hhigh : t.sramByte s.spBelow.toNat = some (hiByte w))
    (htsp : t.sp = wrapTo s.cfg.spw (s.sp - 2)) : t.popPc = .ok (w, { t with sp := s.sp }) := by
  have hup : wrapTo t.cfg.spw (t.sp + 1) = s.spBelow := by
    rw [hcfg, htsp, wrapTo_wrapTo_add, State.spBelow]
    congr 1
    bv_omega
  have hup' : wrapTo t.cfg.spw (s.spBelow + 1) = s.sp := by rw [hcfg, wrapTo_spBelow_add_one hs]
  have hpopHigh : t.pop8 = .ok (hiByte w, { t with sp := s.spBelow }) := by
    refine pop8_ok.mpr ⟨by rw [State.setSp, hup], ?_⟩
    rw [setSp_sp, hup]
    exact memRead_of_sramByte_some ((sramAt_congr hcfg _).trans hbelow) hhigh
  have hpopLow : ({ t with sp := s.spBelow } : State).pop8 = .ok (loByte w, { t with sp := s.sp }) := by
    refine pop8_ok.mpr ⟨by rw [State.setSp, hup'], ?_⟩
    rw [setSp_sp, hup']
    exact memRead_of_sramByte_some ((sramAt_congr hcfg _).trans hsp) hlow
  exact popPc_ok.mpr ⟨_, _, _, hpopHigh, hpopLow, (joinBytes_hiByte_loByte w).symm⟩

end Sys2Proof.Machine
end

section
/-! The statements about the branch instructions, and interrupt entry with RETI (43_branch.md R260 to R294;
44_mega_extension.md R322, R323; 60_exceptions.md R356 to R358). -/

namespace Sys2Proof.Machine

/-! ## Comparisons and conditional branches -/

theorem comparison_of_exec {s : State} {i : Instr} {a b r : Byte} {c keepZ : Bool}
    (hi : exec i s = .next (s.compare a b (if c then 1 else 0) keepZ))
    (hr : (r.toNat : Int) = (a.toNat - b.toNat - c.toNat : Int) % 256) :
    ∃ t, exec i s = .next t ∧ DiffFlags t a b r c (!keepZ || s.flag .z) ∧ FrameRegs [] [.c, .z, .n, .v, .s, .h] s t ∧
      t.pc = s.pcPlus 1 :=
  ⟨_, hi, diffFlags_compare hr, frameRegs_compare .., rfl⟩

/-- Settles O32: Z as it was counts for CPC alone. -/
theorem comparisons : Obligations.Comparisons := by
  intro s rd rr k b r c z i hform hr
  rcases hform with ⟨rfl, rfl, rfl, rfl⟩ | ⟨rfl, rfl, rfl, rfl⟩ | ⟨rfl, rfl, rfl, rfl⟩
  · exact comparison_of_exec (keepZ := false) rfl hr
  · exact comparison_of_exec (keepZ := false) rfl hr
  · exact comparison_of_exec (keepZ := true) rfl hr

/-- Settles O44: a branch taken is a step to PC + 1 + k, one not taken a step of one word. -/
theorem conditionalBranches : Obligations.ConditionalBranches := by
  intro s n k hp
  refine ⟨?_, ?_, ?_, ?_, ?_, ?_, ?_, ?_, ?_, ?_, ?_, ?_, ?_, ?_, ?_, ?_, ?_, ?_, ?_, ?_⟩ <;>
    exact branchesIf_of_exec hp rfl

/-- Settles O33: after CP, Z says equal, C below and S less. -/
theorem compareThenBranch : Obligations.CompareThenBranch := by
  intro s t rd rr k hp ht
  have hr : ((s.reg rd - s.reg rr).toNat : Int) = ((s.reg rd).toNat - (s.reg rr).toNat : Int) % 256 := by bv_omega
  have hr0 : ((s.reg rd - s.reg rr).toNat : Int) =
      ((s.reg rd).toNat - (s.reg rr).toNat - false.toNat : Int) % 256 := by
    rw [hr, Bool.toNat_false, Nat.cast_zero, sub_zero]
  obtain ⟨u, hu, hflags, ⟨-, -, -, ⟨hcfg, -⟩, -⟩, -⟩ := comparisons s rd rr 0 _ _ _ _ _ (.inl ⟨rfl, rfl, rfl, rfl⟩) hr0
  obtain rfl : u = t := by rw [ht] at hu; exact (Host.Outcome.next.inj hu).symm
  obtain ⟨-, -, heq, hne, -, -, hsh, hlo, -, -, hge, hlt, -⟩ := conditionalBranches u 0 k (hcfg ▸ hp)
  rw [hflags.flag_z_eq hr] at heq hne
  rw [hflags.flag_c_eq] at hlo hsh
  rw [hflags.flag_s_eq hr] at hlt hge
  simp only [← decide_not, Nat.not_lt, Int.not_lt] at hne hsh hge
  exact ⟨heq, hne, hlo, hsh, hlt, hge⟩

/-! ## Jumps -/

/-- Settles O45: the target written to the PC is cut to the bits the PC has. -/
theorem jumps : Obligations.Jumps := by
  intro s k a n hp
  have hdvd : 2 ^ s.cfg.pcw ∣ 2 ^ 16 := pow_dvd_pow 2 hp
  refine ⟨⟨_, rfl, frameRegs_setPc s _, goesBy_relTarget hp k⟩, ⟨_, rfl, frameRegs_setPc s _, toNat_wrapTo ..⟩,
    ⟨_, rfl, frameRegs_setPc s _, ?jmp⟩, ?pcPlus⟩
  case jmp => rw [setPc_pc, toNat_wrapTo, BitVec.toNat_setWidth, Nat.mod_mod_of_dvd _ hdvd]
  case pcPlus => rw [State.pcPlus, toNat_wrapTo, BitVec.toNat_add, Nat.mod_mod_of_dvd _ hdvd]

/-! ## Calls and returns -/

/-- RET after its pop sets the PC alone (43_branch.md R264). -/
theorem exec_ret {s w : State} {a : Word} (h : s.popPc = .ok (a, w)) :
    ∃ t, exec .ret s = .next t ∧ t.pc = wrapTo s.cfg.pcw a ∧ t.sp = w.sp ∧ FrameStack [] [] s t := by
  obtain ⟨hcfg, -⟩ := popPc_sameProgram h
  refine ⟨_, outcome_next.mpr (returnFromCall_ok.mpr ⟨a, w, h, rfl⟩), ?pc, rfl,
    (popPc_frameStack h).trans (frameStack_setPc w a)⟩
  rw [setPc_pc, hcfg]

/-- RETI after its pop: the PC, I and the delay are all that it writes (43_branch.md R265). -/
theorem exec_reti {s w : State} {a : Word} (h : s.popPc = .ok (a, w)) :
    ∃ t, exec .reti s = .next t ∧ t.pc = wrapTo w.cfg.pcw a ∧ t.sp = w.sp ∧ t.flag .i = true ∧ SameFlagsBut [.i] w t ∧
      SameRegsBut [] w t ∧ SameMemory w t ∧ SameDevices w t ∧ t.inhibit = true := by
  refine ⟨_, outcome_next.mpr (returnFromInterrupt_ok.mpr ⟨a, w, h, rfl⟩), rfl, rfl, ?i, fun f hf => ?others,
    fun _ _ => rfl, ⟨fun _ => rfl, fun _ => rfl⟩, ⟨rfl, rfl, rfl, rfl, rfl, rfl, rfl⟩, rfl⟩
  case i => exact (flagOf_setFlag ..).trans (if_pos rfl)
  case others => exact (flagOf_setFlag ..).trans (if_neg (List.ne_of_not_mem_cons hf))

/-- Interrupt entry after its push: the PC, I, the request, the sleep flag and the delay are all that it writes
(60_exceptions.md R356). -/
theorem takeInterrupt_of_pushPc {s x : State} (h : s.pushPc s.pc = .ok x) (n : Nat) (q : Irq) :
    ∃ t, s.takeInterrupt n q = .ok t ∧ t.cfg = x.cfg ∧ t.sp = x.sp ∧ SameFlagsBut [.i] x t ∧
      SameRegsBut [] x t ∧ SameMemory x t ∧ t.io = x.io.clearRequest q ∧ t.pinB = x.pinB ∧ t.pinD = x.pinD ∧
      t.prev = x.prev ∧ t.inputs = x.inputs ∧ t.sleeping = false := by
  refine ⟨_, takeInterrupt_ok.mpr ⟨x, h, rfl⟩, rfl, rfl, fun f hf => ?others, fun _ _ => rfl,
    ⟨fun _ => rfl, fun _ => rfl⟩, rfl, rfl, rfl, rfl, rfl, rfl⟩
  exact (flagOf_setFlag ..).trans (if_neg (List.ne_of_not_mem_cons hf))

/-- `i` is a call with return address `ret`: it pushes `ret` and sets the PC to the target in the state that leaves. -/
def CallsTo (i : Instr) (ret : Word) (target : State → Int) (s : State) : Prop :=
  exec i s = outcome (s.pushPc ret >>= fun x => pure (x.setPc (BitVec.ofInt 16 (target x))))

theorem callsTo_rcall (s : State) (k : BitVec 12) :
    CallsTo (.rcall k) (s.pcPlus 1) (fun _ => s.pc.toNat + 1 + k.toInt) s := by
  have htarget : BitVec.ofInt 16 (s.pc.toNat + 1 + k.toInt) = s.relTarget (k.signExtend 16) := by
    rw [relTarget_signExtend, ← ofInt_toNat_add, add_assoc]
  rw [CallsTo, htarget]
  rfl

theorem callsTo_icall (s : State) : CallsTo .icall (s.pcPlus 1) (fun x => (x.ptr .z).toNat) s := by
  have htarget (x : State) : BitVec.ofInt 16 (x.ptr .z).toNat = x.ptr .z := by
    rw [BitVec.ofInt_natCast, BitVec.ofNat_toNat, BitVec.setWidth_eq]
  simp only [CallsTo, htarget]
  rfl

theorem callsTo_call (s : State) (a : BitVec 22) : CallsTo (.call a) (s.pcPlus 2) (fun _ => a.toNat) s := by
  rw [CallsTo, BitVec.ofInt_natCast, BitVec.ofNat_toNat]
  rfl

section
variable {s : State} {i : Instr} {ret : Word} {target : State → Int} (h : CallsTo i ret target s)
include h

/-- A fault of the push is the call's; else only the PC is set after it. -/
theorem CallsTo.pushesThen (hp : s.cfg.pcw ≤ 16) :
    PushesThen (exec i s) ret s
      (fun x t => (t.pc.toNat : Int) = target x % 2 ^ s.cfg.pcw ∧ t = { x with pc := t.pc }) := by
  rw [CallsTo] at h
  rw [h]
  refine pushesThen_of_pushPc (fun f hf => bind_error.mpr (.inl hf)) fun x hx => ?_
  obtain ⟨hcfg, -⟩ := pushPc_sameProgram hx
  refine ⟨_, bind_ok.mpr ⟨x, hx, rfl⟩, ?_, rfl⟩
  rw [setPc_pc, hcfg, toNat_wrapTo_ofInt hp]

theorem CallsTo.exec_of_sramAt (hsp : s.sramAt s.sp = true) (hbelow : s.sramAt s.spBelow = true) :
    ∃ t, exec i s = .next t ∧ t.pc = wrapTo s.cfg.pcw (BitVec.ofInt 16 (target (s.pushedToSram ret))) ∧
      t.sramByte s.sp.toNat = some (loByte ret) ∧ t.sramByte s.spBelow.toNat = some (hiByte ret) ∧
      t.sp = wrapTo s.cfg.spw (s.sp - 2) ∧ FrameStack [] [s.sp, s.spBelow] s t :=
  ⟨_, h.trans (outcome_bind_pure_of_ok (pushPc_of_sramAt hsp hbelow ret) _), rfl, pushedToSram_sramByte_sp hsp ret,
    pushedToSram_sramByte_spBelow s ret, rfl, (frameStack_pushedToSram s ret).trans (frameStack_setPc ..)⟩

/-- The address popped is the one pushed, and the PC takes it whole, being below `2^PCW`. -/
theorem CallsTo.then_ret (hs : s.wf = true) (hret : ret.toNat < 2 ^ s.cfg.pcw) (hsp : s.sramAt s.sp = true)
    (hbelow : s.sramAt s.spBelow = true) :
    ∃ t u, exec i s = .next t ∧ exec .ret t = .next u ∧ u.pc = ret ∧ u.sp = s.sp ∧
      FrameStack [] [s.sp, s.spBelow] s u := by
  obtain ⟨t, ht, -, hlow, hhigh, htsp, hframe⟩ := h.exec_of_sramAt hsp hbelow
  have ⟨_, _, _, ⟨hcfg, _⟩, _⟩ := hframe
  obtain ⟨u, hu, hpc, husp, hframe'⟩ := exec_ret (popPc_of_pushed hs hsp hbelow hcfg hlow hhigh htsp)
  exact ⟨t, u, ht, hu, hpc.trans (hcfg ▸ wrapTo_of_lt hret), husp, hframe.trans hframe'⟩

end

/-- Settles O46: each call is a push and a jump. In the SRAM the push touches neither the PC nor Z. -/
theorem calls : Obligations.Calls := by
  intro s k a i ret target hp hform
  obtain ⟨hcall, hsame⟩ : CallsTo i ret target s ∧ target (s.pushedToSram ret) = target s := by
    rcases hform with ⟨rfl, rfl, htarget⟩ | ⟨rfl, rfl, htarget⟩ | ⟨rfl, rfl, htarget⟩ <;>
      obtain rfl := funext htarget
    · exact ⟨callsTo_rcall s k, rfl⟩
    · exact ⟨callsTo_icall s, rfl⟩
    · exact ⟨callsTo_call s a, rfl⟩
  refine ⟨hcall.pushesThen hp, fun hsp hbelow => ?_⟩
  obtain ⟨t, ht, hpc, hlow, hhigh, htsp, hframe⟩ := hcall.exec_of_sramAt hsp hbelow
  rw [← loByte_eq_extractLsb', ← hiByte_eq_extractLsb']
  refine ⟨t, ht, ?_, hlow, hhigh, htsp, hframe⟩
  rw [hpc, toNat_wrapTo_ofInt hp, hsame]

/-- Settles O47: both returns are a pop of the PC, after which RETI writes I and the delay. -/
theorem returns : Obligations.Returns := by
  refine fun s hp => ⟨?ret, ?reti⟩
  case ret =>
    refine popsThen_of_popPc (fun f hf => returnFromCall_error.mpr hf) fun a w hw => ?_
    obtain ⟨t, ht, hpc, hsp, hframe⟩ := exec_ret hw
    refine ⟨t, outcome_next.mp ht, ?_, hsp, hframe⟩
    rw [hpc, toNat_wrapTo]
  case reti =>
    refine popsThen_of_popPc (fun f hf => returnFromInterrupt_error.mpr hf) fun a w hw => ?_
    obtain ⟨hregs, hflags, hmem, hdev, -⟩ := popPc_frameStack hw
    obtain ⟨t, ht, hpc, hsp, hi, hflags', hregs', hmem', hdev', hinhibit⟩ := exec_reti hw
    have ⟨hcfg, _⟩ := hdev
    refine ⟨t, outcome_next.mp ht, ?pc, hsp, hi, (hflags.mono (List.nil_subset _)).trans hflags', hregs.trans hregs',
      (hmem.trans_sameMemory hmem').sameMemory, hdev.trans hdev', hinhibit⟩
    rw [hpc, hcfg, toNat_wrapTo]

/-- Interrupt entry and RETI: the PC popped is the one pushed, and of the flags entry clears I and RETI sets it. -/
theorem takeInterrupt_then_reti {s : State} (hs : s.wf = true) (hsp : s.sramAt s.sp = true)
    (hbelow : s.sramAt s.spBelow = true) (n : Nat) (q : Irq) :
    ∃ t u, s.takeInterrupt n q = .ok t ∧ exec .reti t = .next u ∧ u.pc = s.pc ∧ u.sp = s.sp ∧
      u.flag .i = true ∧ SameFlagsBut [.i] s u ∧ SameRegsBut [] s u ∧ SameMemoryBut [s.sp, s.spBelow] s u ∧
      u.io = s.io.clearRequest q ∧ u.pinB = s.pinB ∧ u.pinD = s.pinD ∧ u.prev = s.prev ∧ u.cfg = s.cfg ∧
      u.inputs = s.inputs ∧ u.inhibit = true ∧ u.sleeping = false := by
  obtain ⟨hregs, hflags, hmem, ⟨hcfg, hio, hpinB, hpinD, hprev, -, hinputs⟩, -⟩ := frameStack_pushedToSram s s.pc
  obtain ⟨t, ht, hcfgT, hspT, hflagsT, hregsT, hmemT, hioT, hpinBT, hpinDT, hprevT, hinputsT, hsleepT⟩ :=
    takeInterrupt_of_pushPc (pushPc_of_sramAt hsp hbelow s.pc) n q
  have hcfgT := hcfgT.trans hcfg
  have ⟨hbyteT, _⟩ := hmemT
  have hlow := (hbyteT _).trans (pushedToSram_sramByte_sp hsp s.pc)
  have hhigh := (hbyteT _).trans (pushedToSram_sramByte_spBelow s s.pc)
  have hioT := hioT.trans (congrArg (·.clearRequest q) hio)
  obtain ⟨u, hu, hpcU, hspU, hiU, hflagsU, hregsU, hmemU,
      ⟨hcfgU, hioU, hpinBU, hpinDU, hprevU, hsleepU, hinputsU⟩, hinhibitU⟩ :=
    exec_reti (popPc_of_pushed hs hsp hbelow hcfgT hlow hhigh hspT)
  refine ⟨t, u, ht, hu, ?pc, hspU, hiU, ((hflags.mono (List.nil_subset _)).trans hflagsT).trans hflagsU,
    (hregs.trans hregsT).trans hregsU, (hmem.trans_sameMemory hmemT).trans_sameMemory hmemU, hioU.trans hioT,
    hpinBU.trans (hpinBT.trans hpinB), hpinDU.trans (hpinDT.trans hpinD), hprevU.trans (hprevT.trans hprev),
    hcfgU.trans hcfgT, hinputsU.trans (hinputsT.trans hinputs), hinhibitU, hsleepU.trans hsleepT⟩
  exact hpcU.trans (hcfgT ▸ wrapTo_of_lt (State.wf_iff.mp hs).pc)

/-- Settles O48: the return address is a PC value, so the PC popped is all of it. -/
theorem callThenReturn : Obligations.CallThenReturn := by
  refine fun s k a i ret n q hs hsp hbelow => ⟨fun hform => ?call, takeInterrupt_then_reti hs hsp hbelow n q⟩
  have hpc (m : Word) : (s.pcPlus m).toNat < 2 ^ s.cfg.pcw := wrapTo_lt ..
  rcases hform with ⟨rfl, rfl⟩ | ⟨rfl, rfl⟩ | ⟨rfl, rfl⟩
  · exact (callsTo_rcall s k).then_ret hs (hpc 1) hsp hbelow
  · exact (callsTo_icall s).then_ret hs (hpc 1) hsp hbelow
  · exact (callsTo_call s a).then_ret hs (hpc 2) hsp hbelow

/-! ## Skips -/

/-- Settles O49: of the two I/O skips the byte tested is that of the register at the address. -/
theorem skips : Obligations.Skips := by
  intro s rd rr b p hp
  refine ⟨skipsIf_of_exec hp rfl, skipsIf_of_exec hp rfl, skipsIf_of_exec hp rfl, fun q hq => ?_⟩
  have hread : s.ioRead (lowIoAddr p) = .ok (s.ioRegRead q) := ioRead_ok.mpr ⟨q, hq, rfl⟩
  exact ⟨skipsIf_of_exec hp (exec_sbic_eq hread), skipsIf_of_exec hp (exec_sbis_eq hread)⟩

end Sys2Proof.Machine
end

section
/-! The statements about the instructions of profile PMEGA (44_mega_extension.md R309 to R321). -/

namespace Sys2Proof.Machine

/-! ## A product of operands as a number

Each product word is the number the operands stand for, modulo $10000: `BitVec.ofInt 16` of it. -/

/-- An unsigned operand (R316). -/
theorem setWidth_eq_ofInt (v : Byte) : v.setWidth 16 = BitVec.ofInt 16 v.toNat := by
  rw [BitVec.ofInt_natCast, BitVec.ofNat_toNat]

theorem unsigned_mul_unsigned (a b : Byte) :
    a.setWidth 16 * b.setWidth 16 = BitVec.ofInt 16 (a.toNat * b.toNat) := by
  rw [setWidth_eq_ofInt, setWidth_eq_ofInt, BitVec.ofInt_mul]

theorem signed_mul_signed (a b : Byte) : a.signExtend 16 * b.signExtend 16 = BitVec.ofInt 16 (a.toInt * b.toInt) := by
  rw [BitVec.signExtend, BitVec.signExtend, BitVec.ofInt_mul]

theorem signed_mul_unsigned (a b : Byte) :
    a.signExtend 16 * b.setWidth 16 = BitVec.ofInt 16 (a.toInt * b.toNat) := by
  rw [BitVec.signExtend, setWidth_eq_ofInt, BitVec.ofInt_mul]

/-- The shift of the fractional forms doubles the number (R319 to R321). -/
theorem ofInt_shiftLeft_one (p : Int) : BitVec.ofInt 16 p <<< 1 = BitVec.ofInt 16 (2 * p) := by
  rw [BitVec.shiftLeft_eq_mul_twoPow, BitVec.mul_comm, BitVec.ofInt_mul]
  rfl

/-- Bit 15 of a number modulo $10000. -/
theorem getLsbD_fifteen_ofInt (p : Int) : (BitVec.ofInt 16 p).getLsbD 15 = decide (0x8000 ≤ p % 0x10000) := by
  rw [getLsbD_fifteen, BitVec.toNat_ofInt, decide_eq_decide]
  change 0x8000 ≤ (p % 0x10000).toNat ↔ _
  omega

/-! ## Multiplies -/

theorem flagOf_mulFlags_of_notMem (sreg : Byte) (p r : Word) {f : Flag} (hf : f ∉ [.c, .z]) :
    flagOf (mulFlags sreg p r) f = flagOf sreg f := by
  rw [flagOf_mulFlags]
  cases f with
  | c | z => simp at hf
  | _ => rfl

section
variable {s : State} {i : Instr} {w : Word} {p : Int}

/-- A multiply that writes `r` for the product `w` gives the product `p` if these are the words of those numbers. -/
theorem givesProduct_of_exec {r : Word} {sh : Bool} (hi : exec i s = .next (s.product w r))
    (hw : w = BitVec.ofInt 16 p) (hr : r = BitVec.ofInt 16 (if sh then 2 * p else p)) : GivesProduct i p sh s := by
  obtain ⟨hpair, hframe⟩ := pair_and_frame_of_setPair_setFlags (t := s.product w r) rfl
    fun f hf => flagOf_mulFlags_of_notMem s.sreg w r hf
  refine ⟨_, hi, hpair.trans hr, ?c, ?z, hframe, rfl⟩
  case c =>
    calc (s.product w r).flag .c = w.getLsbD 15 := flagOf_mulFlags ..
      _ = decide (0x8000 ≤ p % 0x10000) := by rw [hw, getLsbD_fifteen_ofInt]
  case z =>
    calc (s.product w r).flag .z = (r == 0) := flagOf_mulFlags ..
      _ = decide ((s.product w r).pair 0 = 0) := by rw [hpair, beq_eq_decide]

/-- The integer multiplies write the product itself (R316 to R318). -/
theorem givesProduct_of_integer (hi : exec i s = .next (s.product w w)) (hw : w = BitVec.ofInt 16 p) :
    GivesProduct i p false s :=
  givesProduct_of_exec hi hw hw

/-- The fractional multiplies write the product shifted (R319 to R321). -/
theorem givesProduct_of_fractional (hi : exec i s = .next (s.product w (w <<< 1))) (hw : w = BitVec.ofInt 16 p) :
    GivesProduct i p true s :=
  givesProduct_of_exec hi hw (hw ▸ ofInt_shiftLeft_one p)

end

/-- Settles O50: a fractional form takes the product of its integer form. -/
theorem multiplies : Obligations.Multiplies := by
  intro s rd rr
  have hmul := unsigned_mul_unsigned (s.reg rd) (s.reg rr)
  have hmuls := signed_mul_signed (s.reg rd) (s.reg rr)
  have hmulsu := signed_mul_unsigned (s.reg rd) (s.reg rr)
  exact ⟨givesProduct_of_integer rfl hmul, givesProduct_of_integer rfl hmuls, givesProduct_of_integer rfl hmulsu,
    givesProduct_of_fractional rfl hmul, givesProduct_of_fractional rfl hmuls, givesProduct_of_fractional rfl hmulsu⟩

/-! ## Stops -/

/-- SPM acts on a unit the specification leaves out (R314). -/
theorem exec_spm (s : State) : exec .spm s = .fault (.unmodelledInstruction "SPM") := rfl

/-- BREAK acts on a unit the specification leaves out (R315). -/
theorem exec_brk (s : State) : exec .brk s = .fault (.unmodelledInstruction "BREAK") := rfl

/-- Settles O51: the words are fixed, and neither meaning looks at the state. -/
theorem spmAndBreakStop : Obligations.SpmAndBreakStop :=
  ⟨rfl, rfl, fun s => ⟨exec_spm s, exec_brk s⟩⟩

end Sys2Proof.Machine
end

section
/-! The statements about the pins, the timer/counters and the environment's events (60_exceptions.md R340 to R348). -/

namespace Sys2Proof.Machine

/-! ## Pins -/

/-- A pin's level as R340 gives it: the output, else the drive from outside, else the pull-up, else the floating
level. -/
theorem levelBit_eq (ddr port : Byte) (p : PinDrive) (n : BitNo) :
    levelBit ddr port p n = if byteBit ddr n then byteBit port n
      else if byteBit p.driven n then byteBit p.drive n else byteBit port n || byteBit p.float n := by
  unfold levelBit PinDrive.ext
  cases byteBit ddr n
  case true => cases byteBit port n <;> rfl
  case false =>
    cases byteBit p.driven n
    case true => cases byteBit port n <;> rfl
    case false => cases byteBit port n <;> rfl

/-- Bit 7 of port D has no pin (60_exceptions.md R348). -/
theorem byteBit_levelsD (s : State) (n : BitNo) :
    byteBit s.levelsD n = (levelBit s.io.ddrD s.io.portD s.pinD n && decide (n ≠ 7)) := by
  have hmask : byteBit 0x7F n = decide (n ≠ 7) := by revert n; decide
  rw [State.levelsD, byteBit_and, byteBit_portLevels, hmask]

/-- Settles O57: PINx reads the levels of the port's pins. -/
theorem pinLevels : Obligations.PinLevels := by
  refine fun s n => ⟨?portB, fun hn => ?portD, ?noPin⟩
  case portB => exact (byteBit_portLevels ..).trans (levelBit_eq ..)
  case portD => rw [State.ioRegRead, byteBit_levelsD, levelBit_eq, decide_eq_true hn, Bool.and_true]
  case noPin => exact (byteBit_levelsD s 7).trans (Bool.and_false _)

/-! ## Flags that are raised -/

/-- The byte with bit `n` set where `c` holds, and else as it is. -/
def raiseBit (v : Byte) (n : BitNo) (c : Bool) : Byte := if c then setByteBit v n true else v

@[simp] theorem byteBit_raiseBit (v : Byte) (n : BitNo) (c : Bool) (m : BitNo) :
    byteBit (raiseBit v n c) m = (byteBit v m || m == n && c) := by
  cases c
  case false => simp [raiseBit]
  case true => by_cases h : m = n <;> simp [raiseBit, h]

theorem raiseGifr_eq (io : IoFile) (n : BitNo) (c : Bool) :
    io.raiseGifr n c = { io with gifr := raiseBit io.gifr n c } := by
  cases c <;> rfl

/-! ## Timer/counters -/

/-- The count's step to 0 is the step from its greatest value (60_exceptions.md R344). -/
theorem count0_eq (io : IoFile) :
    io.count0 = { io with tcnt0 := io.tcnt0 + 1, tifr := raiseBit io.tifr 1 (io.tcnt0 == 0xFF) } := by
  have hstep : io.tcnt0 + 1 = 0 ↔ (io.tcnt0 == 0xFF) = true := by
    rw [beq_iff_eq]
    bv_omega
  simp only [IoFile.count0, raiseBit, hstep]

theorem count1_eq (io : IoFile) :
    io.count1 = { io with tcnt1 := io.tcnt1 + 1, tifr := raiseBit io.tifr 7 (io.tcnt1 == 0xFFFF) } := by
  have hstep : io.tcnt1 + 1 = 0 ↔ (io.tcnt1 == 0xFFFF) = true := by
    rw [beq_iff_eq]
    bv_omega
  simp only [IoFile.count1, raiseBit, hstep]

theorem prescaled_eq_true {cs : Nat} (hlow : 1 ≤ cs) (hhigh : cs ≤ 5) : prescaled cs = true :=
  decide_eq_true ⟨hlow, hhigh⟩

theorem prescaled_eq_false {cs : Nat} (h : cs = 0 ∨ 6 ≤ cs) : prescaled cs = false :=
  decide_eq_false (by omega)

/-- Settles O59: a tick that is allowed is one count of its timer. -/
theorem timerTicks : Obligations.TimerTicks := by
  rintro s _ _ rfl rfl
  refine ⟨?timer0, ?timer1⟩
  case timer0 =>
    rintro cs rfl
    refine ⟨fun hlow hhigh => ?_, fun hcs => if_neg (by simp [clockSelect, prescaled_eq_false hcs])⟩
    have htick : s.event .tick0 = s.setIo s.io.count0 := if_pos (prescaled_eq_true hlow hhigh)
    rw [htick, count0_eq]
    exact ⟨BitVec.toNat_add .., rfl, fun n => byteBit_raiseBit ..⟩
  case timer1 =>
    rintro cs rfl
    refine ⟨fun hlow hhigh => ?_, fun hcs => if_neg (by simp [clockSelect, prescaled_eq_false hcs])⟩
    have htick : s.event .tick1 = s.setIo s.io.count1 := if_pos (prescaled_eq_true hlow hhigh)
    rw [htick, count1_eq]
    exact ⟨BitVec.toNat_add .., rfl, fun n => byteBit_raiseBit ..⟩

/-! ## Edges -/

/-- The edges of PD2 to PD5 raise flags and count, and touch no other device register: `i0`, `i1` tell whether INT0's
and INT1's flags are raised, `c0`, `c1` whether the timers count (60_exceptions.md R343, R344). -/
theorem pinEdges_eq (io : IoFile) (old new : Byte) {i0 i1 c0 c1 : Bool}
    (hi0 : setsIntFlag (senseControl io.mcucr 0) (byteBit old 2) (byteBit new 2) = i0)
    (hi1 : setsIntFlag (senseControl io.mcucr 1) (byteBit old 3) (byteBit new 3) = i1)
    (hc0 : countsEdge (clockSelect io.tccr0) (byteBit old 4) (byteBit new 4) = c0)
    (hc1 : countsEdge (clockSelect io.tccr1b) (byteBit old 5) (byteBit new 5) = c1) :
    io.pinEdges old new = { io with
      gifr := raiseBit (raiseBit io.gifr 6 i0) 7 i1
      tcnt0 := if c0 then io.tcnt0 + 1 else io.tcnt0
      tcnt1 := if c1 then io.tcnt1 + 1 else io.tcnt1
      tifr := raiseBit (raiseBit io.tifr 1 (c0 && io.tcnt0 == 0xFF)) 7 (c1 && io.tcnt1 == 0xFFFF) } := by
  simp only [IoFile.pinEdges, raiseGifr_eq, hi0, hi1, hc0]
  cases c0 <;> simp only [count0_eq, if_true, Bool.false_eq_true, if_false, hc1] <;>
    cases c1 <;> simp only [count1_eq, if_true, Bool.false_eq_true, if_false] <;> rfl

theorem setsIntFlag_iff {isc : Nat} {old new : Bool} :
    setsIntFlag isc old new = true ↔ (isc = 2 ∧ old = true ∧ new = false) ∨ (isc = 3 ∧ old = false ∧ new = true) ∨
      (isc = 1 ∧ old ≠ new) := by
  simp [setsIntFlag, and_assoc, or_assoc]

theorem countsEdge_eq_decide (cs : Nat) (old new : Bool) :
    countsEdge cs old new =
      decide ((cs = 6 ∧ old = true ∧ new = false) ∨ (cs = 7 ∧ old = false ∧ new = true)) := by
  rw [Bool.eq_iff_iff]
  simp [countsEdge, and_assoc]

/-- Settles O58: each bit is read off from the device registers after the edges. -/
theorem pinEdges : Obligations.PinEdges := by
  rintro s _ old new c0 c1 rfl rfl rfl hc0 hc1
  have hio := pinEdges_eq s.io s.prev s.watchedLevels rfl rfl ((countsEdge_eq_decide ..).trans hc0.symm)
    ((countsEdge_eq_decide ..).trans hc1.symm)
  have hgifr := congrArg IoFile.gifr hio
  refine ⟨⟨_, _, _, _, congrArg (fun io => { s with io := io, prev := s.watchedLevels }) hio⟩,
    fun n h6 h7 => ?otherFlags, ?intFlags, congrArg IoFile.tcnt0 hio, congrArg IoFile.tcnt1 hio, fun n => ?timerFlags⟩
  case otherFlags =>
    rw [pinsChanged_io, hgifr]
    simp [beq_false_of_ne h6, beq_false_of_ne h7]
  case intFlags =>
    rintro n pin bit isc hsource rfl
    refine Iff.trans ?_ (or_congr_right setsIntFlag_iff)
    rw [pinsChanged_io, hgifr]
    rcases hsource with ⟨rfl, rfl, rfl⟩ | ⟨rfl, rfl, rfl⟩ <;> simp [senseControl, State.watchedLevels]
  case timerFlags =>
    rw [pinsChanged_io, congrArg IoFile.tifr hio]
    simp [Bool.and_assoc]

/-! ## The schedule and its events -/

theorem eventList_eq_foldl (s : State) (es : List EnvEvent) : s.eventList es = es.foldl State.event s := by
  induction es generalizing s with
  | nil => rfl
  | cons e es ih => exact ih (s.event e)

theorem takeInputs_of_cons {s : State} {batch : List EnvEvent} {rest : List (List EnvEvent)}
    (h : s.inputs = batch :: rest) : s.takeInputs = State.eventList { s with inputs := rest } batch := by
  rw [State.takeInputs, h]

/-- A drive replaces what is outside one pin (60_exceptions.md R340, R342). -/
theorem ext_setExt (p : PinDrive) (n : BitNo) (v : Option Bool) (m : BitNo) :
    (p.setExt n v).ext m = if m = n then v else p.ext m := by
  by_cases h : m = n
  · cases v <;> simp [PinDrive.ext, PinDrive.setExt, h]
  · simp [PinDrive.ext, PinDrive.setExt, h]

theorem byteBit_float_setFloat (p : PinDrive) (n : BitNo) (v : Bool) (m : BitNo) :
    byteBit (p.setFloat n v).float m = if m = n then v else byteBit p.float m := byteBit_setByteBit ..

/-- Settles O60: the pins' outside is changed in one pin of the port named, and a flag event raises one bit of TIFR. -/
theorem environmentEvents : Obligations.EnvironmentEvents := by
  refine fun s x n v f => ⟨takeInputs_of_nil, fun batch rest h => ⟨?_, ?_⟩, ?drive, ?float,
    ⟨raiseBit s.io.tifr 6 true, rfl, fun m => by simp⟩, ⟨raiseBit s.io.tifr 3 true, rfl, fun m => by simp⟩⟩
  · rw [takeInputs_of_cons h, eventList_eq_foldl]
  · rw [takeInputs_of_cons h, eventList_inputs]
  case drive =>
    cases x with
    | b => exact ⟨s.pinB.setExt n v, s.pinD, rfl, ext_setExt s.pinB n v, rfl, rfl⟩
    | d => exact ⟨s.pinB, s.pinD.setExt n v, rfl, ext_setExt s.pinD n v, rfl, rfl⟩
  case float =>
    cases x with
    | b => exact ⟨s.pinB.setFloat n f, s.pinD, rfl, byteBit_float_setFloat s.pinB n f, fun _ => rfl, rfl⟩
    | d => exact ⟨s.pinB, s.pinD.setFloat n f, rfl, byteBit_float_setFloat s.pinD n f, fun _ => rfl, rfl⟩

end Sys2Proof.Machine
end

section
/-! The statements about what a boundary does: the requests and their priority, the interrupt delay, sleep, interrupt
entry, and the instruction a step runs (60_exceptions.md R343 to R366; 20_memory.md R66). -/

namespace Sys2Proof.Machine

/-! ## Requests -/

theorem pending_iff {s : State} {q : Irq} : s.pending q = true ↔ s.request q = true ∧ s.enabled q = true :=
  Bool.and_eq_true_iff

theorem firstPending_ne_none_iff {s : State} {n : Nat} {qs : List Irq} :
    s.firstPending n qs ≠ none ↔ ∃ q ∈ qs, s.pending q = true := by
  induction qs generalizing n with
  | nil => simp [State.firstPending]
  | cons q qs ih =>
    rw [State.firstPending]
    split
    next h => simp [h]
    next h => simp [ih, h]

/-- The vector taken of a list whose head is vector `k`: its source is pending, and no source before it is
(60_exceptions.md R354). -/
theorem firstPending_some {s : State} {k n : Nat} {qs : List Irq} {q : Irq} (h : s.firstPending k qs = some (n, q)) :
    k ≤ n ∧ qs[n - k]? = some q ∧ s.pending q = true ∧
      ∀ m, k ≤ m → m < n → ∀ q', qs[m - k]? = some q' → s.pending q' = false := by
  induction qs generalizing k with
  | nil => simp [State.firstPending] at h
  | cons p qs ih =>
    have hskip {m : Nat} (hm : k + 1 ≤ m) : (p :: qs)[m - k]? = qs[m - (k + 1)]? := by
      rw [show m - k = m - (k + 1) + 1 by omega, List.getElem?_cons_succ]
    rw [State.firstPending] at h
    split at h
    next hp =>
      cases h
      exact ⟨Nat.le_refl _, by simp, hp, fun m hkm hmk => absurd hmk (by omega)⟩
    next hp =>
      obtain ⟨hkn, hq, hpending, hbefore⟩ := ih h
      refine ⟨by omega, (hskip hkn).trans hq, hpending, fun m hkm hmn q' hq' => ?_⟩
      rcases Nat.eq_or_lt_of_le hkm with rfl | hlt
      · obtain rfl : p = q' := by simpa using hq'
        simpa using hp
      · exact hbefore m hlt hmn q' ((hskip hlt).symm.trans hq')

/-- Something is deliverable where interrupts are allowed and a source of the vector table is pending
(60_exceptions.md R353). -/
theorem deliverable_eq (s : State) :
    s.deliverable = if s.flag .i = true ∧ s.inhibit = false then s.firstPending 1 s.cfg.vectors else none := by
  simp [State.deliverable]

theorem firstPending_of_deliverable {s : State} {n : Nat} {q : Irq} (h : s.deliverable = some (n, q)) :
    s.firstPending 1 s.cfg.vectors = some (n, q) := by
  rw [deliverable_eq] at h
  split at h
  · exact h
  · cases h

/-- Settles O53: the vector table is searched from vector 1 on. -/
theorem interruptPriority : Obligations.InterruptPriority := by
  refine fun s => ⟨?delivers, fun n q h => ?first⟩
  case delivers =>
    simp only [← pending_iff, ← firstPending_ne_none_iff (n := 1)]
    rw [deliverable_eq]
    split
    next h => simp [h]
    next h => simp only [← and_assoc, h, false_and, ne_eq, not_true]
  case first =>
    obtain ⟨hn, hq, hpending, hbefore⟩ := firstPending_some (firstPending_of_deliverable h)
    obtain ⟨hrequest, henabled⟩ := pending_iff.mp hpending
    exact ⟨hn, hq, hrequest, henabled, hbefore⟩

/-- The sources of vectors 7 to 10 have no register that requests (60_exceptions.md R350; entry 32). -/
theorem request_of_unmodelled_device (s : State) {q : Irq} (h : q = .urxc ∨ q = .udre ∨ q = .utxc ∨ q = .aci) :
    s.request q = false := by
  rcases h with rfl | rfl | rfl | rfl <;> rfl

/-- Settles O54: a vector above 6 is one of the last four of P2313's list. -/
theorem interruptSources : Obligations.InterruptSources := by
  refine fun s => ⟨?int0, ?int1, rfl, rfl, rfl, rfl, rfl, rfl, rfl, rfl, rfl, rfl,
    fun q hq => request_of_unmodelled_device s hq, fun n q hcfg h => ?vector⟩
  case int0 => simp [State.request, State.intRequest, senseControl]
  case int1 => simp [State.request, State.intRequest, senseControl]
  case vector =>
    obtain ⟨-, hq, hpending, -⟩ := firstPending_some (firstPending_of_deliverable h)
    obtain ⟨hrequest, -⟩ := pending_iff.mp hpending
    by_contra hn
    have hlast : (Config.p2313.vectors.drop 6)[n - 7]? = some q := by
      rw [List.getElem?_drop, show 6 + (n - 7) = n - 1 by omega, ← hcfg, hq]
    have hq' : q ∈ [Irq.urxc, .udre, .utxc, .aci] := List.mem_of_getElem? hlast
    rw [request_of_unmodelled_device s (by simpa using hq')] at hrequest
    cases hrequest

/-! ## What the environment's events leave alone -/

/-- The core is as it was: what no event but a reset changes (60_exceptions.md R342). -/
structure SameCore (s t : State) : Prop where
  regs : t.regs = s.regs
  pc : t.pc = s.pc
  sreg : t.sreg = s.sreg
  sp : t.sp = s.sp
  sram : t.sram = s.sram
  flash : t.flash = s.flash
  sleeping : t.sleeping = s.sleeping
  inhibit : t.inhibit = s.inhibit

theorem SameCore.trans {s t u : State} (hst : SameCore s t) (htu : SameCore t u) : SameCore s u :=
  ⟨htu.regs.trans hst.regs, htu.pc.trans hst.pc, htu.sreg.trans hst.sreg, htu.sp.trans hst.sp,
    htu.sram.trans hst.sram, htu.flash.trans hst.flash, htu.sleeping.trans hst.sleeping, htu.inhibit.trans hst.inhibit⟩

theorem sameCore_refl (s : State) : SameCore s s := ⟨rfl, rfl, rfl, rfl, rfl, rfl, rfl, rfl⟩

theorem sameCore_setIo (s : State) (io : IoFile) : SameCore s (s.setIo io) := ⟨rfl, rfl, rfl, rfl, rfl, rfl, rfl, rfl⟩

theorem sameCore_mapPins_pinsChanged (s : State) (x : Port) (f : PinDrive → PinDrive) :
    SameCore s (s.mapPins x f).pinsChanged := by
  cases x <;> exact ⟨rfl, rfl, rfl, rfl, rfl, rfl, rfl, rfl⟩

theorem event_sameCore (s : State) {e : EnvEvent} (he : e ≠ .reset) : SameCore s (s.event e) := by
  cases e with
  | drive x n v => exact sameCore_mapPins_pinsChanged ..
  | float x n v => exact sameCore_mapPins_pinsChanged ..
  | tick0 =>
    rw [State.event]
    split
    · exact sameCore_setIo ..
    · exact sameCore_refl s
  | tick1 =>
    rw [State.event]
    split
    · exact sameCore_setIo ..
    · exact sameCore_refl s
  | flag f => cases f <;> exact sameCore_setIo ..
  | reset => exact absurd rfl he

theorem eventList_sameCore {s : State} {es : List EnvEvent} (h : EnvEvent.reset ∉ es) :
    SameCore s (s.eventList es) := by
  induction es generalizing s with
  | nil => exact sameCore_refl s
  | cons e es ih =>
    have he := List.ne_of_not_mem_cons h
    exact (event_sameCore s he.symm).trans (ih (List.not_mem_of_not_mem_cons h))

theorem takeInputs_sameCore {s : State} (h : ∀ b ∈ s.inputs, EnvEvent.reset ∉ b) : SameCore s s.takeInputs := by
  cases hin : s.inputs with
  | nil => rw [takeInputs_of_nil hin]; exact sameCore_refl s
  | cons batch rest =>
    rw [takeInputs_of_cons hin]
    have hcore := eventList_sameCore (s := { s with inputs := rest }) (h batch (hin ▸ List.mem_cons_self))
    exact ⟨hcore.regs, hcore.pc, hcore.sreg, hcore.sp, hcore.sram, hcore.flash, hcore.sleeping, hcore.inhibit⟩

/-! ## The interrupt delay -/

/-- No interrupt is allowed: I = 0, or the delay holds (60_exceptions.md R353). -/
def State.Masked (s : State) : Prop := s.flag .i = false ∨ s.inhibit = true

theorem State.Masked.deliverable {s : State} (h : s.Masked) : s.deliverable = none := by
  rcases h with h | h
  · exact deliverable_of_flag_i_false h
  · simp [State.deliverable, h]

/-- Of the events a reset alone touches I or the delay, and it clears I. -/
theorem State.Masked.event {s : State} (h : s.Masked) (e : EnvEvent) : (s.event e).Masked := by
  by_cases he : e = .reset
  · subst he
    exact .inl (byteBit_zero 7)
  · have hcore := event_sameCore s he
    rwa [State.Masked, State.flag, hcore.sreg, hcore.inhibit]

theorem State.Masked.eventList {s : State} (h : s.Masked) (es : List EnvEvent) : (s.eventList es).Masked := by
  induction es generalizing s with
  | nil => exact h
  | cons e es ih => exact ih (h.event e)

theorem State.Masked.takeInputs {s : State} (h : s.Masked) : s.takeInputs.Masked := by
  cases hin : s.inputs with
  | nil => rwa [takeInputs_of_nil hin]
  | cons batch rest =>
    rw [takeInputs_of_cons hin]
    exact State.Masked.eventList (s := { s with inputs := rest }) h batch

theorem inhibit_of_exec_sei {s t : State} (h : exec .sei s = .next t) : t.inhibit = (s.inhibit || !s.flag .i) := by
  obtain ⟨u, hu, -, -, -, -, -, -, hinhibit, -⟩ := givesFlag_of_exec (i := .sei) (f := .i) (b := true) (s := s) rfl
  cases h.symm.trans hu
  simpa using hinhibit

theorem inhibit_of_exec_reti {s t : State} (h : exec .reti s = .next t) : t.inhibit = true := by
  obtain ⟨w, u, -, rfl⟩ := returnFromInterrupt_ok.mp (outcome_next.mp h)
  rfl

theorem beginInstr_fetch (s : State) : s.beginInstr.fetch = s.fetch := rfl

/-- A step of an awake machine with nothing to take and an instruction at the PC (60_exceptions.md R355). -/
theorem step_of_fetch {s : State} {i : Instr} (hnone : s.takeInputs.deliverable = none)
    (hawake : s.takeInputs.sleeping = false) (hfetch : s.takeInputs.fetch = .ok i) :
    step s = exec i s.takeInputs.beginInstr := by
  rw [step_of_awake hnone hawake, State.runInstr, beginInstr_fetch, hfetch]

/-- Settles O55: SEI and RETI leave the delay behind, which the events of the boundary keep. -/
theorem interruptDelay : Obligations.InterruptDelay := by
  refine ⟨fun s t h hi => ?sei, fun s t h => ?reti, fun s t hs hi h => ?sei_again, fun s t hnone hawake hfetch h => ?nop⟩
  case sei =>
    have hmasked : t.Masked := .inr (by rw [inhibit_of_exec_sei h, hi, Bool.not_false, Bool.or_true])
    exact hmasked.takeInputs.deliverable
  case reti =>
    have hmasked : t.Masked := .inr (inhibit_of_exec_reti h)
    exact hmasked.takeInputs.deliverable
  case sei_again => rw [inhibit_of_exec_sei h, hs, hi, Bool.not_true, Bool.or_false]
  case nop =>
    rw [step_of_fetch hnone hawake hfetch] at h
    cases h
    exact ⟨rfl, rfl⟩

/-! ## Sleep -/

theorem step_of_asleep {s : State} (hnone : s.takeInputs.deliverable = none) (hasleep : s.takeInputs.sleeping = true) :
    step s = .next s.takeInputs := by
  simp [step, State.stepCore, State.action, hnone, hasleep]

theorem step_of_deliverable {s : State} {n : Nat} {q : Irq} (h : s.takeInputs.deliverable = some (n, q)) :
    step s = outcome (s.takeInputs.takeInterrupt n q) := by
  simp [step, State.stepCore, State.action, h]

/-- Settles O56: interrupt entry wakes the core, and with I = 0 only a reset could. -/
theorem sleeping : Obligations.Sleeping := by
  refine ⟨fun s hasleep hnone => step_of_asleep hnone hasleep, fun s t hsome h => ?wakes, fun s hasleep hi hinputs => ?sleeps⟩
  case wakes =>
    obtain ⟨⟨n, q⟩, hnq⟩ := Option.ne_none_iff_exists'.mp hsome
    rw [step_of_deliverable hnq] at h
    obtain ⟨x, -, rfl⟩ := takeInterrupt_ok.mp (outcome_next.mp h)
    rfl
  case sleeps =>
    have hcore := takeInputs_sameCore hinputs
    have hi' : s.takeInputs.flag .i = false := by rwa [State.flag, hcore.sreg]
    have hasleep' := hcore.sleeping.trans hasleep
    exact ⟨_, step_of_asleep (deliverable_of_flag_i_false hi') hasleep', hasleep', hi',
      sameRegsBut_nil_of_regs_eq hcore.regs, sameMemory_of_same hcore.sram hcore.flash, hcore.pc, hcore.sp⟩

/-! ## Interrupt entry -/

theorem toNat_wrapTo_ofNat {n : Nat} (hn : n ≤ 16) (k : Nat) : (wrapTo n (BitVec.ofNat 16 k)).toNat = k % 2 ^ n := by
  rw [toNat_wrapTo, BitVec.toNat_ofNat, Nat.mod_mod_of_dvd _ (pow_dvd_pow 2 hn)]

/-- What entry writes after its push: the PC, I, the request, the sleep flag and the delay, and nothing else
(60_exceptions.md R356). -/
theorem takeInterrupt_eq {s x : State} (hx : s.pushPc s.pc = .ok x) (hp : s.cfg.pcw ≤ 16) (n : Nat) (q : Irq) :
    ∃ t, s.takeInterrupt n q = .ok t ∧ t.pc.toNat = n * s.cfg.vectorStride % 2 ^ s.cfg.pcw ∧ t.flag .i = false ∧
      SameFlagsBut [.i] x t ∧
      t = { x with pc := t.pc, sreg := t.sreg, io := x.io.clearRequest q, sleeping := false, inhibit := false } := by
  obtain ⟨hcfg, -⟩ := pushPc_sameProgram hx
  refine ⟨_, takeInterrupt_ok.mpr ⟨x, hx, rfl⟩, ?vector, ?i, fun f hf => ?others, rfl⟩
  case vector => exact hcfg ▸ toNat_wrapTo_ofNat (hcfg ▸ hp) _
  case i => exact (flagOf_setFlag ..).trans (if_pos rfl)
  case others => exact (flagOf_setFlag ..).trans (if_neg (List.ne_of_not_mem_cons hf))

/-- Entry clears INT0's flag, but in low-level mode, where the pin itself requests, keeps it (60_exceptions.md R343). -/
theorem byteBit_clearRequest_int0 (io : IoFile) :
    byteBit (io.clearRequest .int0).gifr 6 = (decide (io.mcucr.toNat % 4 = 0) && byteBit io.gifr 6) := by
  by_cases h : io.mcucr.toNat % 4 = 0 <;> simp [IoFile.clearRequest, senseControl, h]

theorem byteBit_clearRequest_int1 (io : IoFile) :
    byteBit (io.clearRequest .int1).gifr 7 = (decide (io.mcucr.toNat / 4 % 4 = 0) && byteBit io.gifr 7) := by
  by_cases h : io.mcucr.toNat / 4 % 4 = 0 <;> simp [IoFile.clearRequest, senseControl, h]

/-- Settles O52: entry is a push of the PC and then writes that touch neither memory nor a register. -/
theorem interruptEntry : Obligations.InterruptEntry := by
  rintro s u n q rfl hq hp
  rw [step_of_deliverable hq]
  refine ⟨?anywhere, fun hsp hbelow => ?inSram⟩
  case anywhere =>
    exact pushesThen_of_pushPc (fun f hf => takeInterrupt_error.mpr hf) fun x hx => takeInterrupt_eq hx hp n q
  case inSram =>
    generalize s.takeInputs = u at hp hsp hbelow ⊢
    obtain ⟨hregs, hflags, hmem, ⟨hcfg, hio, -⟩, -⟩ := frameStack_pushedToSram u u.pc
    obtain ⟨t, ht, hpc, hi, hflags', heq⟩ := takeInterrupt_eq (pushPc_of_sramAt hsp hbelow u.pc) hp n q
    have hmem' : SameMemory (u.pushedToSram u.pc) t :=
      sameMemory_of_same (congrArg State.sram heq :) (congrArg State.flash heq :)
    have ⟨hbyte, _⟩ := hmem'
    have hio' : t.io = u.io.clearRequest q := (congrArg State.io heq).trans (congrArg (·.clearRequest q) hio)
    rw [← loByte_eq_extractLsb', ← hiByte_eq_extractLsb']
    refine ⟨t, outcome_next.mpr ht, hpc, (hbyte _).trans (pushedToSram_sramByte_sp hsp u.pc),
      (hbyte _).trans (pushedToSram_sramByte_spBelow u u.pc), congrArg State.sp heq, hi,
      (hflags.mono (List.nil_subset _)).trans hflags', hregs.trans (sameRegsBut_nil_of_regs_eq (congrArg State.regs heq :)),
      hmem.trans_sameMemory hmem', congrArg State.sleeping heq, congrArg State.inhibit heq,
      (congrArg State.cfg heq).trans hcfg, hio', ?request⟩
    cases q with
    | int0 => exact hio' ▸ byteBit_clearRequest_int0 u.io
    | int1 => exact hio' ▸ byteBit_clearRequest_int1 u.io
    | icp1 | oc1 | ovf1 | ovf0 => simp [hio', IoFile.clearRequest]
    | urxc | udre | utxc | aci => trivial

/-! ## The instruction a step runs -/

/-- The second word read is nothing to an instruction of one word (30_encoding.md R91). -/
theorem decode_of_one_word {p : Profile} {w w1 : Word} {i : Instr} (hlen : wordLength p w ≠ 2)
    (h : decode p w w1 = .ok i) (w2 : Word) : decode p w w2 = .ok i := by
  obtain ⟨hwf, hprofile, hcore, hwords⟩ := encodeDecode p w w1 i h
  rw [if_neg hlen] at hwords
  have hagain := decode_of_encode_begins (p := p) (w := w) (w1 := w2) hwf (by simp [hwords])
  rw [if_pos hprofile] at hagain
  exact hagain.trans (congrArg Except.ok (eq_of_beq hcore))

theorem fetch_of_decode {s : State} {w1 : Word} {i : Instr} (hpc : s.pc.toNat < s.cfg.flashWords)
    (hsecond : wordLength s.cfg.profile (s.progWord s.pc.toNat) = 2 →
      (s.pcPlus 1).toNat < s.cfg.flashWords ∧ w1 = s.progWord (s.pcPlus 1).toNat)
    (h : decode s.cfg.profile (s.progWord s.pc.toNat) w1 = .ok i) : s.fetch = .ok i := by
  by_cases hlen : wordLength s.cfg.profile (s.progWord s.pc.toNat) = 2
  · obtain ⟨hpc', rfl⟩ := hsecond hlen
    exact fetch_ok.mpr ⟨_, fetchWord_of_lt hpc, _, (if_pos hlen).trans (fetchWord_of_lt hpc'), h⟩
  · exact fetch_ok.mpr ⟨_, fetchWord_of_lt hpc, 0, if_neg hlen, decode_of_one_word hlen h 0⟩

/-- Settles O6: the words named are those a fetch reads, which the delay cleared first does not touch. -/
theorem stepRunsDecodedInstruction : Obligations.StepRunsDecodedInstruction := by
  rintro s _ i w1 rfl hnone hawake hpc hsecond h
  exact step_of_fetch hnone hawake (fetch_of_decode hpc hsecond h)

end Sys2Proof.Machine
end

section
/-! The statements about the I/O registers: what each reads after a write, and the addresses without one
(60_exceptions.md R347 to R349; 10_state.md R44). -/

namespace Sys2Proof.Machine

/-! ## The stack pointer's halves -/

/-- SP of 8 bits has its high half 0 (10_state.md R30). -/
theorem wrapTo_eight_joinBytes (hi lo : Byte) : wrapTo 8 (joinBytes hi lo) = joinBytes 0 lo := by
  have hzero : (0 : Byte).toNat = 0 := rfl
  apply BitVec.eq_of_toNat_eq
  rw [toNat_wrapTo, toNat_joinBytes, toNat_joinBytes, hzero]
  omega

theorem wrapTo_sixteen (w : Word) : wrapTo 16 w = w := wrapTo_of_lt w.isLt

theorem hiByte_of_lt {w : Word} (h : w.toNat < 2 ^ 8) : hiByte w = 0 := by
  apply BitVec.eq_of_toNat_eq
  rw [toNat_hiByte]
  exact Nat.div_eq_of_lt h

section
variable {s : State} (hs : s.wf = true) (v : Byte)
include hs

/-- A write of SPL keeps SPH, whatever the width of SP. -/
theorem setSp_low_halves :
    loByte (s.setSp (joinBytes (hiByte s.sp) v)).sp = v ∧
      hiByte (s.setSp (joinBytes (hiByte s.sp) v)).sp = hiByte s.sp := by
  have hsp := (State.wf_iff.mp hs).sp
  rw [setSp_sp]
  rcases spw_of_cfg_wf (State.wf_iff.mp hs).cfg with h | h <;> rw [h] at hsp ⊢
  · simp [wrapTo_eight_joinBytes, hiByte_of_lt hsp]
  · simp [wrapTo_sixteen]

/-- A write of SPH keeps SPL, and takes effect where SP has the width. -/
theorem setSp_high_halves :
    loByte (s.setSp (joinBytes v (loByte s.sp))).sp = loByte s.sp ∧
      (s.cfg.spw = 16 → hiByte (s.setSp (joinBytes v (loByte s.sp))).sp = v) := by
  rw [setSp_sp]
  rcases spw_of_cfg_wf (State.wf_iff.mp hs).cfg with h | h <;> rw [h]
  · simp [wrapTo_eight_joinBytes]
  · simp [wrapTo_sixteen]

end

/-! ## Reading after writing -/

/-- `PinsChanged` writes no output and no direction of port D. -/
theorem pinsChanged_portD (s : State) : s.pinsChanged.io.portD = s.io.portD ∧ s.pinsChanged.io.ddrD = s.io.ddrD := by
  rw [pinsChanged_io, pinEdges_eq s.io s.prev s.watchedLevels rfl rfl rfl rfl]
  exact ⟨rfl, rfl⟩

/-- Unless port D's pins change, a write of one register leaves what every other reads, but for PINB (60_exceptions.md
R348). -/
theorem ioRegRead_of_ioRegWrite_ne {s t : State} {v : Byte} {r q : IoReg} (hs : s.wf = true)
    (h : s.ioRegWrite v r = some t) (hportD : r ≠ .portD) (hddrD : r ≠ .ddrD) (hq : q ≠ r)
    (hpinB : r = .portB ∨ r = .ddrB → q ≠ .pinB) : t.ioRegRead q = s.ioRegRead q := by
  have hlow := (setSp_low_halves hs v).2
  have hhigh := (setSp_high_halves hs v).1
  cases r
  case portD | ddrD | pinB | pinD => contradiction
  case sreg | spl | sph | gimsk | gifr | timsk | tifr | mcucr | tccr0 | tcnt0 | tccr1a | tccr1b =>
    cases h
    cases q <;> trivial
  case tcnt1h | tcnt1l | ocr1ah | ocr1al | icr1h | icr1l =>
    cases h
    cases q <;> simp [State.ioRegRead, State.levelsB, State.levelsD] at hq ⊢
  case portB | ddrB =>
    have hpinB := hpinB (by simp)
    cases h
    cases q <;> trivial

/-- Settles O16: the masks are the same at a write and a read, and the two halves of a word are kept apart. -/
theorem ioRegisterReadBack : Obligations.IoRegisterReadBack := by
  refine fun s t v r hs h => ⟨?written, fun hportD hddrD => ⟨?prev, fun q => ?others⟩, ?portD, ?ddrD⟩
  case others => exact ioRegRead_of_ioRegWrite_ne hs h hportD hddrD
  case prev =>
    cases r <;> cases h
    case portD | ddrD => contradiction
    all_goals rfl
  case portD =>
    rintro rfl
    cases h
    rfl
  case ddrD =>
    rintro rfl
    cases h
    rfl
  case written =>
    have hclear (x m : Byte) : x &&& ~~~v &&& m = x &&& m &&& ~~~v := by ac_rfl
    cases r <;> cases h
    case sreg | tcnt0 | portB | ddrB => rfl
    case spl => exact (setSp_low_halves hs v).1
    case sph => exact (setSp_high_halves hs v).2
    case gimsk | timsk | mcucr | tccr0 | tccr1a | tccr1b => exact bitsIn_and_mask v _
    case gifr | tifr => exact hclear _ _
    case tcnt1h | ocr1ah | icr1h => exact hiByte_joinBytes ..
    case tcnt1l | ocr1al | icr1l => exact loByte_joinBytes ..
    case portD => exact (congrArg (· &&& 0x7F) (pinsChanged_portD _).1).trans (bitsIn_and_mask v 0x7F)
    case ddrD => exact (congrArg (· &&& 0x7F) (pinsChanged_portD _).2).trans (bitsIn_and_mask v 0x7F)

/-! ## Addresses without a register -/

theorem lookupIo_eq_none {a : IoAddr} {m : List (IoReg × IoAddr)} (h : a ∉ m.map (·.2)) : lookupIo a m = none := by
  induction m with
  | nil => rfl
  | cons c m ih =>
    have hne : c.2 ≠ a := (List.ne_of_not_mem_cons h).symm
    exact (if_neg hne).trans (ih (List.not_mem_of_not_mem_cons h))

theorem ioRead_of_none {s : State} {a : IoAddr} (h : s.ioRegAt a = none) :
    s.ioRead a = .error (.unmodelledIo a .read) := by
  rw [State.ioRead, h]

theorem ioWrite_of_none {s : State} {a : IoAddr} (h : s.ioRegAt a = none) (v : Byte) :
    s.ioWrite a v = .error (.unmodelledIo a .write) := by
  rw [State.ioWrite, h]

/-- PINB and PIND are read only (60_exceptions.md R349). -/
theorem ioWrite_of_pin {s : State} {a : IoAddr} {r : IoReg} (h : s.ioRegAt a = some r) (hr : r = .pinB ∨ r = .pinD)
    (v : Byte) : s.ioWrite a v = .error (.unmodelledIo a .write) := by
  rw [State.ioWrite, h]
  simp only [ioRegWrite_eq_none.mpr hr]

/-- SBI and CBI read before they write, and fault as the first of the two that does. -/
theorem ioBitWrite_error {s : State} {a : IoAddr} {b : BitNo} {v : Bool} {f : Fault} :
    s.ioBitWrite a b v = .error f ↔
      s.ioRead a = .error f ∨ ∃ x, s.ioRead a = .ok x ∧ s.ioWrite a (setByteBit x b v) = .error f := by
  simp only [State.ioBitWrite, bind_error, pure, Except.pure, reduceCtorEq, and_false, exists_false, or_false]

/-- Settles O17: every access of an I/O register goes through a read or a write of its address. -/
theorem unmodelledIoFaults : Obligations.UnmodelledIoFaults := by
  intro s r b hmap
  have hnone {p : IoAddr} (hp : p ∉ Config.p2313IoMap.map (·.2)) : s.ioRegAt p = none :=
    lookupIo_eq_none (hmap ▸ hp)
  refine ⟨fun p hp => ?io, fun q hq => ?low, fun q hq => ?pins⟩
  case io =>
    have hread := ioRead_of_none (hnone hp)
    have hwrite := ioWrite_of_none (hnone hp)
    exact ⟨outcome_bind_of_error hread _, outcome_bind_of_error (hwrite _) _, fun a v ha =>
      ⟨(memRead_eq_ioRead ha).trans hread, (memWrite_eq_ioWrite ha v).trans (hwrite v)⟩⟩
  case low =>
    have hread := ioRead_of_none (hnone hq)
    have hbit (x : Bool) := ioBitWrite_error (b := b) (v := x) |>.mpr (.inl hread)
    exact ⟨outcome_fault.mpr (hbit true), outcome_fault.mpr (hbit false), outcome_bind_of_error hread _,
      outcome_bind_of_error hread _⟩
  case pins =>
    obtain ⟨p, hp, hpin⟩ : ∃ p, s.ioRegAt (lowIoAddr q) = some p ∧ (p = .pinB ∨ p = .pinD) := by
      rw [State.ioRegAt, hmap]
      rcases hq with rfl | rfl
      · exact ⟨.pinB, rfl, .inl rfl⟩
      · exact ⟨.pinD, rfl, .inr rfl⟩
    have hread := ioRead_ok.mpr ⟨p, hp, rfl⟩
    have hwrite := ioWrite_of_pin hp hpin
    have hbit (x : Bool) := ioBitWrite_error (b := b) (v := x) |>.mpr (.inr ⟨_, hread, hwrite _⟩)
    exact ⟨outcome_bind_of_error (hwrite _) _, outcome_fault.mpr (hbit true), outcome_fault.mpr (hbit false),
      fun a v ha => (memWrite_eq_ioWrite ha v).trans (hwrite v)⟩

end Sys2Proof.Machine
end

section
/-! The statement about how a step stops: which faults the shared operations and the instructions raise
(60_exceptions.md R331; 44_mega_extension.md R314, R315). -/

namespace Sys2Proof.Machine

/-! ## Faults of the shared operations -/

/-- No fault of the computation is that of an unmodelled instruction. -/
def Modelled {α : Type} (e : Except Fault α) : Prop := ∀ m, e ≠ .error (.unmodelledInstruction m)

section
variable {α β : Type} {s : State}

theorem modelled_ok (a : α) : Modelled (.ok a : Except Fault α) := fun _ => nofun

theorem Modelled.bind {e : Except Fault α} {f : α → Except Fault β} (he : Modelled e) (hf : ∀ a, Modelled (f a)) :
    Modelled (e >>= f) := fun m h => by
  rcases bind_error.mp h with h | ⟨a, -, h⟩
  · exact he m h
  · exact hf a m h

/-- A computation whose last part has no faults. -/
theorem Modelled.bind_pure {e : Except Fault α} (he : Modelled e) (g : α → β) : Modelled (e >>= fun a => pure (g a)) :=
  he.bind fun a => modelled_ok (g a)

theorem modelled_ite {c : Prop} [Decidable c] {e e' : Except Fault α} (he : Modelled e) (he' : Modelled e') :
    Modelled (if c then e else e') := by
  split
  · exact he
  · exact he'

theorem modelled_ioRead (a : IoAddr) : Modelled (s.ioRead a) := by
  unfold State.ioRead
  split
  · exact modelled_ok _
  · exact fun _ => nofun

theorem modelled_ioWrite (a : IoAddr) (v : Byte) : Modelled (s.ioWrite a v) := by
  unfold State.ioWrite
  split
  · split
    · exact modelled_ok _
    · exact fun _ => nofun
  · exact fun _ => nofun

theorem modelled_memRead (a : Word) : Modelled (s.memRead a) := by
  unfold State.memRead
  refine modelled_ite (modelled_ok _) (modelled_ite (modelled_ioRead _) (modelled_ite ?_ fun _ => nofun))
  split
  · exact modelled_ok _
  · exact fun _ => nofun

theorem modelled_memWrite (a : Word) (v : Byte) : Modelled (s.memWrite a v) :=
  modelled_ite (modelled_ok _) (modelled_ite (modelled_ioWrite _ _) (modelled_ite (modelled_ok _) fun _ => nofun))

theorem modelled_push8 (v : Byte) : Modelled (s.push8 v) := (modelled_memWrite _ _).bind_pure _

theorem modelled_pushPc (w : Word) : Modelled (s.pushPc w) := (modelled_push8 _).bind fun _ => modelled_push8 _

theorem modelled_pop8 : Modelled s.pop8 := (modelled_memRead _).bind_pure _

theorem modelled_popPc : Modelled s.popPc := modelled_pop8.bind fun _ => modelled_pop8.bind_pure _

theorem modelled_fetchWord (w : Word) : Modelled (s.fetchWord w) := modelled_ite (modelled_ok _) fun _ => nofun

theorem modelled_decodeAt (a w w1 : Word) : Modelled (s.decodeAt a w w1) := by
  unfold State.decodeAt
  split
  · exact modelled_ok _
  · exact fun _ => nofun

theorem modelled_fetch : Modelled s.fetch :=
  (modelled_fetchWord _).bind fun _ =>
    (modelled_ite (modelled_fetchWord _) (modelled_ok _)).bind fun _ => modelled_decodeAt _ _ _

theorem modelled_progByte (b : Word) : Modelled (s.progByte b) :=
  modelled_ite (modelled_ite (modelled_ok _) (modelled_ok _)) fun _ => nofun

theorem modelled_skipIf (c : Bool) : Modelled (s.skipIf c) :=
  modelled_ite
    (((modelled_fetchWord _).bind fun _ => (modelled_decodeAt _ _ _).bind_pure _).bind_pure _)
    (modelled_ok _)

theorem modelled_loadIndirect (p : Ptr) (m : PtrMode) (rd : Reg) : Modelled (s.loadIndirect p m rd) := by
  refine modelled_ite (fun _ => nofun) ?_
  cases m <;> exact (modelled_memRead _).bind_pure _

theorem modelled_storeIndirect (p : Ptr) (m : PtrMode) (rr : Reg) : Modelled (s.storeIndirect p m rr) := by
  refine modelled_ite (fun _ => nofun) ?_
  cases m <;> exact (modelled_memWrite _ _).bind_pure _

theorem modelled_ioBitWrite (a : IoAddr) (b : BitNo) (v : Bool) : Modelled (s.ioBitWrite a b v) :=
  (modelled_ioRead _).bind fun _ => (modelled_ioWrite _ _).bind_pure _

theorem modelled_takeInterrupt (n : Nat) (q : Irq) : Modelled (s.takeInterrupt n q) := (modelled_pushPc _).bind_pure _

end

/-! ## Instructions and steps -/

/-- The outcome is no refusal and no fault of an unmodelled instruction. -/
def StopsModelled (o : Host.Outcome State Fault Refusal) : Prop :=
  (∀ r, o ≠ .refused r) ∧ ∀ m, o ≠ .fault (.unmodelledInstruction m)

theorem stopsModelled_next (t : State) : StopsModelled (.next t) := ⟨fun _ => nofun, fun _ => nofun⟩

theorem Modelled.stopsModelled {e : Except Fault State} (h : Modelled e) : StopsModelled (outcome e) :=
  ⟨outcome_ne_refused e, fun m hm => h m (outcome_fault.mp hm)⟩

/-- Every instruction but SPM and BREAK raises the faults of the shared operations it is made of, or of an operand
combination without a meaning. -/
theorem exec_stopsModelled {i : Instr} (hspm : i ≠ .spm) (hbrk : i ≠ .brk) (s : State) : StopsModelled (exec i s) := by
  cases i
  case spm | brk => contradiction
  case mov | ldi | sbr | cbr | lsl | lsr | rol | ror | asr | swap | bset | bclr | bst | bld | sec | clc | sen | cln |
      sez | clz | sei | cli | ses | cls | sev | clv | setT | clt | seh | clh | nop | sleep | wdr | add | adc | adiw |
      sub | subi | sbc | sbci | sbiw | and | andi | or | ori | eor | com | neg | inc | dec | tst | clr | ser | cp |
      cpc | cpi | movw | mul | muls | mulsu | fmul | fmuls | fmulsu | rjmp | ijmp | jmp | brbs | brbc | breq | brne |
      brcs | brcc | brsh | brlo | brmi | brpl | brge | brlt | brhs | brhc | brts | brtc | brvs | brvc | brie | brid =>
    exact stopsModelled_next _
  case ldX | ldXInc | ldXDec | ldY | ldYInc | ldYDec | ldZ | ldZInc | ldZDec =>
    exact (modelled_loadIndirect _ _ _).stopsModelled
  case stX | stXInc | stXDec | stY | stYInc | stYDec | stZ | stZInc | stZDec =>
    exact (modelled_storeIndirect _ _ _).stopsModelled
  case lddY | lddZ | lds => exact ((modelled_memRead _).bind_pure _).stopsModelled
  case stdY | stdZ | sts => exact ((modelled_memWrite _ _).bind_pure _).stopsModelled
  case sbi | cbi => exact (modelled_ioBitWrite _ _ _).stopsModelled
  case cpse | sbrc | sbrs => exact (modelled_skipIf _).stopsModelled
  case sbic | sbis => exact ((modelled_ioRead _).bind fun _ => modelled_skipIf _).stopsModelled
  case lpm | lpmZ => exact ((modelled_progByte _).bind_pure _).stopsModelled
  case lpmZInc =>
    simp only [exec, execLpmZInc]
    split
    · exact ⟨fun _ => nofun, fun _ => nofun⟩
    · exact ((modelled_progByte _).bind_pure _).stopsModelled
  case inPort => exact ((modelled_ioRead _).bind_pure _).stopsModelled
  case outPort => exact ((modelled_ioWrite _ _).bind_pure _).stopsModelled
  case push => exact ((modelled_push8 _).bind_pure _).stopsModelled
  case pop => exact (modelled_pop8.bind_pure _).stopsModelled
  case rcall | icall | call => exact ((modelled_pushPc _).bind_pure _).stopsModelled
  case ret | reti => exact (modelled_popPc.bind_pure _).stopsModelled

/-- A step stops as modelled, or it runs SPM or BREAK. -/
theorem step_stopsModelled_or (s : State) :
    StopsModelled (step s) ∨
      (s.takeInputs.fetch = .ok .spm ∧ step s = .fault (.unmodelledInstruction "SPM")) ∨
      (s.takeInputs.fetch = .ok .brk ∧ step s = .fault (.unmodelledInstruction "BREAK")) := by
  cases hnone : s.takeInputs.deliverable with
  | some v =>
    rw [step_of_deliverable hnone]
    exact .inl (modelled_takeInterrupt _ _).stopsModelled
  | none =>
    cases hsleep : s.takeInputs.sleeping with
    | true =>
      rw [step_of_asleep hnone hsleep]
      exact .inl (stopsModelled_next _)
    | false =>
      cases hfetch : s.takeInputs.fetch with
      | error f =>
        rw [step_of_awake hnone hsleep, runInstr_of_fetch_error (beginInstr_fetch _ ▸ hfetch)]
        have hmodelled := modelled_fetch (s := s.takeInputs)
        exact .inl ⟨fun _ => nofun, fun m hm => hmodelled m (hfetch.trans (by cases hm; rfl))⟩
      | ok i =>
        rw [step_of_fetch hnone hsleep hfetch]
        by_cases hspm : i = .spm
        · subst hspm
          exact .inr (.inl ⟨rfl, exec_spm _⟩)
        · by_cases hbrk : i = .brk
          · subst hbrk
            exact .inr (.inr ⟨rfl, exec_brk _⟩)
          · exact .inl (exec_stopsModelled hspm hbrk _)

/-- Settles O10: an interrupt, a step of sleep and every instruction but the two stop as modelled. -/
theorem stepIsNeverRefused : Obligations.StepIsNeverRefused := by
  refine ⟨fun s r h => ?refused, fun s m h => ?unmodelled⟩
  case refused =>
    rcases step_stopsModelled_or s with ⟨hnever, -⟩ | ⟨-, hspm⟩ | ⟨-, hbrk⟩
    · exact hnever r h
    · cases h.symm.trans hspm
    · cases h.symm.trans hbrk
  case unmodelled =>
    rcases step_stopsModelled_or s with ⟨-, hnever⟩ | ⟨hfetch, hspm⟩ | ⟨hfetch, hbrk⟩
    · exact absurd h (hnever m)
    · cases h.symm.trans hspm
      exact .inl ⟨hfetch, rfl⟩
    · cases h.symm.trans hbrk
      exact .inr ⟨hfetch, rfl⟩

end Sys2Proof.Machine
end

section
/-! SUPPORT. The state after a reset of the running chip (70_reset_and_hazards.md R380, R381; entry 10). -/

namespace Sys2Proof.Machine

theorem event_reset (s : State) : s.event .reset = s.chipReset := rfl

theorem chipReset_reg (s : State) (r : Reg) : s.chipReset.reg r = 0 := resetOf_reg s.cfg r

theorem chipReset_sramByte (s : State) (a : Nat) : s.chipReset.sramByte a = none := resetOf_sramByte s.cfg a

theorem chipReset_flashByte (s : State) (b : Nat) : s.chipReset.flashByte b = s.flashByte b := rfl

/-- The levels depend on the port registers and on the pins' outside, so remembering them leaves them as they are. -/
theorem chipReset_prev (s : State) : s.chipReset.prev = s.chipReset.watchedLevels := rfl

/-- Settles O13: the chip's reset state, read field by field, SRAM and registers as in the reset state of its
parameters. -/
theorem resetEvent : Obligations.ResetEvent := by
  rintro s _ rfl
  rw [event_reset]
  exact ⟨(event_frame s .reset).1, rfl, rfl, rfl, rfl, rfl, rfl, chipReset_prev s, rfl, rfl, event_inputs s .reset,
    chipReset_sramByte s, chipReset_flashByte s, chipReset_reg s⟩

end Sys2Proof.Machine
end
